-- ==== Sys2Proof/Word.lean ====
section
/-!
DEFINITION. The word types of EC-PS2 (spec/00_scope.md section 6): bytes, make codes and controller-RAM indices.
All quantities are unsigned; bit 0 is the least significant bit.
-/

namespace Sys2Proof

/-- A byte, 0..255 (00_scope.md section 6). -/
abbrev Byte := BitVec 8

/-- A 16-bit entry of a make-code table (R27, R67). -/
abbrev MakeCode := BitVec 16

/-- An index of the controller RAM, 0..31 (R20, R41, R44). -/
abbrev CfgIndex := BitVec 5

/-- A make-code table: 8 rows of 13 columns (R7 `ROWS`, `COLS`; R27). -/
abbrev MakeTable := Vector (Vector MakeCode 13) 8

end Sys2Proof
end

