-- ==== Sys2Proof/Config.lean ====
section
/-!
DEFINITION. The parameters of the block that the spec leaves open (spec/00_scope.md R7), as one record of plain data, and the
values no source gives, as opaque constants. A machine is made with one such record and no step changes it; the values of
`Config.default` are in Machine/Defaults.lean.
-/

namespace Sys2Proof

/-- Where command 0xF3 takes its rate byte from (R7, R129; decision D5). -/
inductive TypematicOperand where
  | commandByte
  | nextDataByte
  deriving DecidableEq, Repr

/-- Which responses overwrite the ResendBuffer (R7, R150; decision D7). -/
inductive ResendCapture where
  | normalModeOnly
  | allData
  | all
  deriving DecidableEq, Repr

/-- The open parameters of R7. Every value the spec marks open is a field, so a statement over every state is a statement
over every choice of them (93_implementation_defined.md U7, U10). -/
structure Config where
  /-- `SET1_TABLE` (R27; D16). -/
  set1Table : MakeTable
  /-- `SET2_TABLE` (R27; D16). -/
  set2Table : MakeTable
  /-- `SCANSET_GET` (R140; D4). -/
  scansetGet : Byte
  /-- `MAX_SCAN_CODE_LEN` (R26; D9). -/
  maxScanCodeLen : Nat
  /-- `SELFTEST_PASS_0` (R133; D6). -/
  selftestPass0 : Byte
  /-- `SELFTEST_PASS_1` (R133; D6). -/
  selftestPass1 : Byte
  /-- `TYPEMATIC_OPERAND` (R129; D5). -/
  typematicOperand : TypematicOperand
  /-- `RESEND_CAPTURE` (R150; D7). -/
  resendCapture : ResendCapture
  /-- `CMD_READ_CFG` (R170; D10). -/
  cmdReadCfg : Byte
  /-- `CMD_WRITE_CFG` (R170; D10). -/
  cmdWriteCfg : Byte
  /-- `CMD_KBD_DIS` (R170; D10). -/
  cmdKbdDis : Byte
  /-- `CMD_KBD_EN` (R170; D10). -/
  cmdKbdEn : Byte
  /-- `CMD_AUX_DIS` (R170; D10). -/
  cmdAuxDis : Byte
  /-- `CMD_AUX_EN` (R170; D10). -/
  cmdAuxEn : Byte
  /-- `CMD_AUX_ECHO` (R170; D10). -/
  cmdAuxEcho : Byte
  /-- `CMD_AUX_SEND` (R170; D10). -/
  cmdAuxSend : Byte
  /-- `CMD_CFG_READ_BASE`, first code of the 32-code read window (R170; D10). -/
  cfgReadBase : Byte
  /-- `CMD_CFG_WRITE_BASE`, first code of the 32-code write window (R170; D10). -/
  cfgWriteBase : Byte
  /-- `KBD_DIS_BIT`, a bit position of `cfg[0]` (R18; D11). -/
  kbdDisBit : Fin 8
  /-- `AUX_DIS_BIT`, a bit position of `cfg[0]` (R18; D11). -/
  auxDisBit : Fin 8
  /-- `RESET_ENABLED` (R16; D12). -/
  resetEnabled : Bool
  /-- `CFG_RESET[0..31]` (R17; D13). -/
  cfgReset : Vector Byte 32
  /-- DESIGN CHOICE (log 23): whether an accepted console override also prints, which R221 leaves open. -/
  overridePrints : Bool
  deriving DecidableEq, Repr

/-- `SET1_TABLE` of this machine: contents in no source (N1; log 6). -/
opaque Config.set1TableValue : MakeTable

/-- `SET2_TABLE` of this machine but for its one known entry: contents in no source (N1; log 6). -/
opaque Config.set2TableValue : MakeTable

/-- `SELFTEST_PASS_0` of this machine: value in no source (N6; log 5). -/
opaque Config.selftestPass0Value : Byte

/-- `SELFTEST_PASS_1` of this machine: value in no source (N6; log 5). -/
opaque Config.selftestPass1Value : Byte

/-- `CFG_RESET[0..31]` of this machine: contents in no source (N10; log 7). -/
opaque Config.cfgResetValue : Vector Byte 32

/-- Whether an accepted override prints: not specified (R221, U12; log 23). -/
opaque Config.overridePrintsValue : Bool

/-- `first_counter` right after reset: unspecified, outside the block (R24, R30, U11; log 18). -/
opaque Config.firstCounterReset : Nat

/-- `inter_counter` right after reset: unspecified, outside the block (R24, R30, U11; log 18). -/
opaque Config.interCounterReset : Nat

end Sys2Proof
end

