-- ==== Sys2Proof/Machine/Defaults.lean ====
section
/-!
DEFINITION. The default values of the open parameters (spec/00_scope.md R7, spec/42_command_channel.md R170) and the reset
values of the registers (spec/10_state.md R30). Values no source gives are the opaque constants of Config.lean.
-/

namespace Sys2Proof

/-- `SET2_TABLE`: unknown but for the entry the source prints, `SET2_TABLE[0][1] = 0x0076` (R27; log 6). -/
def Config.set2TableDefault : MakeTable :=
  Config.set2TableValue.set 0 (Config.set2TableValue[0].set 1 0x0076#16)

/-- The default configuration (R7). UNVERIFIED: the command codes, the sentinel and the flag bits are the spec's
general-knowledge defaults (log 8, 9, 10); the variants are the spec's default choices (log 11, 12). -/
def Config.default : Config where
  set1Table := Config.set1TableValue
  set2Table := Config.set2TableDefault
  scansetGet := 0x00#8
  maxScanCodeLen := 4
  selftestPass0 := Config.selftestPass0Value
  selftestPass1 := Config.selftestPass1Value
  typematicOperand := .commandByte
  resendCapture := .normalModeOnly
  cmdReadCfg := 0x20#8
  cmdWriteCfg := 0x60#8
  cmdKbdDis := 0xAD#8
  cmdKbdEn := 0xAE#8
  cmdAuxDis := 0xA7#8
  cmdAuxEn := 0xA8#8
  cmdAuxEcho := 0xD3#8
  cmdAuxSend := 0xD4#8
  cfgReadBase := 0x20#8
  cfgWriteBase := 0x60#8
  kbdDisBit := 4
  auxDisBit := 5
  resetEnabled := false
  cfgReset := Config.cfgResetValue
  overridePrints := Config.overridePrintsValue

/-- `DEFAULT_RATE_CODE` (R7, R205; log 17). -/
def defaultRateCode : Byte := 0x2B#8

/-- `DEFAULT_FIRST_DELAY_MS` (R7). -/
def defaultFirstDelayMs : Nat := 500

/-- `DEFAULT_INTER_DELAY_MS` (R7; log 17). -/
def defaultInterDelayMs : Nat := 91

/-- `scancode_set` after reset: Set 2 (R13, R30). -/
def resetScancodeSet : Byte := 2#8

/-- `cfg_addr` after reset (R20, R30; log 16). -/
def resetCfgAddr : CfgIndex := 0#5

end Sys2Proof
end

