-- ==== Sys2Proof/Syntax.lean ====
section
/-!
DEFINITION. The transactions of EC-PS2 as data: the protocol modes, the items that arrive on the four input ports, and one
constructor of `Instr` for each row of spec/opcode_table.json.
-/

namespace Sys2Proof

/-- ProtocolMode, the block's analogue of a program counter (R11). The seventh value exists only in a configuration with
`TYPEMATIC_OPERAND = next_data_byte`. -/
inductive Mode where
  | normal
  | awaitingScancodeSetValue
  | awaitingLedValue
  | awaitingConfigByteValue
  | echoToCaller
  | forwardToSecondaryDevice
  | awaitingTypematicValue
  deriving DecidableEq, Repr

/-- The four input ports (R8, R60). -/
inductive Port where
  | data
  | cmd
  | key
  | con
  deriving DecidableEq, Repr

/-- One argument of a console request: an integer, or anything else (R219, R222). -/
inductive ConArg where
  | int (n : Int)
  | nonInteger
  deriving DecidableEq, Repr

/-- One item on one input port: what a transaction consumes (R60). `argc` of a console request is the length of `args`. -/
inductive Arrival where
  | data (b : Byte)
  | cmd (b : Byte)
  | key (row col : Byte) (pressed : Bool)
  | con (args : List ConArg)
  deriving DecidableEq, Repr

/-- The port an item arrives on. -/
def Arrival.port : Arrival → Port
  | .data _ => .data
  | .cmd _ => .cmd
  | .key _ _ _ => .key
  | .con _ => .con

/-- The transactions, one constructor per row of spec/opcode_table.json (R80). -/
inductive Instr where
  | dScanset
  | dSetleds
  | dIdentify
  | dSetrate
  | dEnable
  | dDisable
  | dSetdefault
  | dReset
  | dResend
  | dQuirk60
  | dQuirk45
  | dUnsup (b : Byte)
  | dScansetGet
  | dScansetSet (b : Byte)
  | dLedValue (b : Byte)
  | dCfgValue (b : Byte)
  | dEchoValue (b : Byte)
  | dAuxValue (b : Byte)
  | dRateValue (b : Byte)
  | cRdcfg
  | cWrcfg
  | cKbddis
  | cKbden
  | cAuxdis
  | cAuxen
  | cAuxecho
  | cAuxsend
  | cRdram (i : CfgIndex)
  | cWrram (i : CfgIndex)
  | cUnrec (b : Byte)
  | kPress (row col : Byte)
  | kRelease (row col : Byte)
  | nReport
  | nOverride (args : List ConArg)
  deriving DecidableEq, Repr

end Sys2Proof
end

