-- ==== Sys2Proof/WellFormed.lean ====
section
/-!
DEFINITION. Which configurations the spec admits (R170's constraint on the command codes, R26, R27) and which terms of `Instr`
stand for a transaction of a configuration.
-/

namespace Sys2Proof

/-- The eight single command codes (R170). -/
def Config.singleCodes (c : Config) : List Byte :=
  [c.cmdReadCfg, c.cmdWriteCfg, c.cmdKbdDis, c.cmdKbdEn, c.cmdAuxDis, c.cmdAuxEn, c.cmdAuxEcho, c.cmdAuxSend]

/-- Is `b` one of the 32 codes from `base` on? -/
def windowHolds (base b : Byte) : Bool :=
  base.toNat ≤ b.toNat && b.toNat ≤ base.toNat + 31

/-- The eight single codes are pairwise distinct (R170). -/
def Config.codesDistinct (c : Config) : Bool :=
  decide c.singleCodes.Nodup

/-- Each window holds 32 codes, so its last code is at most 255 (R170, R41). -/
def Config.windowsFit (c : Config) : Bool :=
  c.cfgReadBase.toNat + 31 ≤ 255 && c.cfgWriteBase.toNat + 31 ≤ 255

/-- The two windows are disjoint (R170). -/
def Config.windowsApart (c : Config) : Bool :=
  c.cfgReadBase.toNat + 31 < c.cfgWriteBase.toNat || c.cfgWriteBase.toNat + 31 < c.cfgReadBase.toNat

/-- No single code lies in a window, but that `CMD_READ_CFG` and `CMD_WRITE_CFG` may be index 0 of theirs (R170). -/
def Config.codesOutsideWindows (c : Config) : Bool :=
  c.singleCodes.all fun b =>
    (!windowHolds c.cfgReadBase b || (b == c.cmdReadCfg && b == c.cfgReadBase)) &&
      (!windowHolds c.cfgWriteBase b || (b == c.cmdWriteCfg && b == c.cfgWriteBase))

/-- `MAX_SCAN_CODE_LEN` is at least 3 (R7, R26, R273). -/
def Config.bufferFits (c : Config) : Bool :=
  3 ≤ c.maxScanCodeLen

/-- The one table entry the source gives: `SET2_TABLE[0][1] = 0x0076` (R27). -/
def Config.knownEntry (c : Config) : Bool :=
  c.set2Table[0][1] == 0x0076#16

/-- The configurations the spec admits. -/
def Config.wf (c : Config) : Bool :=
  c.codesDistinct && c.windowsFit && c.windowsApart && c.codesOutsideWindows && c.bufferFits && c.knownEntry

/-- The eleven listed codes of `Normal` mode (R63). -/
def normalCodes : List Byte :=
  [0xF0#8, 0xED#8, 0xF2#8, 0xF3#8, 0xF4#8, 0xF5#8, 0xF6#8, 0xFF#8, 0xFE#8, 0x60#8, 0x45#8]

/-- A term of `Instr` is well formed in a configuration when some arrival of that configuration stands for it: a default row
holds a byte no listed row takes (R63, R65), a set operand is not `SCANSET_GET` (R64), an indexed command's code is no single
code (R179, R180), the rate operand exists only under `next_data_byte` (R146), an override has an argument (R60). -/
def WellFormed (c : Config) : Instr → Bool
  | .dUnsup b => !normalCodes.contains b
  | .dScansetSet b => b != c.scansetGet
  | .dRateValue _ => c.typematicOperand == .nextDataByte
  | .cRdram i => !c.singleCodes.contains (c.cfgReadBase + i.setWidth 8)
  | .cWrram i => !c.singleCodes.contains (c.cfgWriteBase + i.setWidth 8)
  | .cUnrec b => !c.singleCodes.contains b && !windowHolds c.cfgReadBase b && !windowHolds c.cfgWriteBase b
  | .nOverride args => !args.isEmpty
  | .dScanset | .dSetleds | .dIdentify | .dSetrate | .dEnable | .dDisable | .dSetdefault | .dReset | .dResend
  | .dQuirk60 | .dQuirk45 | .dScansetGet | .dLedValue _ | .dCfgValue _ | .dEchoValue _ | .dAuxValue _ => true
  | .cRdcfg | .cWrcfg | .cKbddis | .cKbden | .cAuxdis | .cAuxen | .cAuxecho | .cAuxsend => true
  | .kPress _ _ | .kRelease _ _ | .nReport => true

end Sys2Proof
end

