-- ==== Sys2Proof/Decode.lean ====
section
/-!
DEFINITION. The decoders of the four ports (spec/30_encoding.md R60 to R65, spec/41_data_channel.md R121,
spec/42_command_channel.md R181), total on every item, and after them the encoder, written from the same tables.
-/

namespace Sys2Proof

/-- Why an item is not decoded. `noSuchMode`: a `DATA` byte was found while the mode is `AwaitingTypematicValue` in a
configuration that does not have that mode (R11, R146; log 11). -/
inductive DecodeError where
  | noSuchMode
  deriving DecidableEq, Repr

/-- The `DATA` opcode map of `Normal` mode (R63). -/
def decodeNormal (b : Byte) : Instr :=
  if b = 0xF0#8 then .dScanset
  else if b = 0xED#8 then .dSetleds
  else if b = 0xF2#8 then .dIdentify
  else if b = 0xF3#8 then .dSetrate
  else if b = 0xF4#8 then .dEnable
  else if b = 0xF5#8 then .dDisable
  else if b = 0xF6#8 then .dSetdefault
  else if b = 0xFF#8 then .dReset
  else if b = 0xFE#8 then .dResend
  else if b = 0x60#8 then .dQuirk60
  else if b = 0x45#8 then .dQuirk45
  else .dUnsup b

/-- A `DATA` byte, first by mode, then in `Normal` by value (R62, R64, R121). -/
def decodeData (c : Config) (m : Mode) (b : Byte) : Except DecodeError Instr :=
  match m with
  | .normal => .ok (decodeNormal b)
  | .awaitingScancodeSetValue => .ok (if b = c.scansetGet then .dScansetGet else .dScansetSet b)
  | .awaitingLedValue => .ok (.dLedValue b)
  | .awaitingConfigByteValue => .ok (.dCfgValue b)
  | .echoToCaller => .ok (.dEchoValue b)
  | .forwardToSecondaryDevice => .ok (.dAuxValue b)
  | .awaitingTypematicValue =>
    if c.typematicOperand = .nextDataByte then .ok (.dRateValue b) else .error .noSuchMode

/-- The index of an indexed command, `b - base` (R71 a, R179, R180). -/
def windowIndex (base b : Byte) : CfgIndex :=
  (b - base).setWidth 5

/-- A `CMD` byte, by value alone (R65, R181). -/
def decodeCmd (c : Config) (b : Byte) : Instr :=
  if b = c.cmdReadCfg then .cRdcfg
  else if b = c.cmdWriteCfg then .cWrcfg
  else if b = c.cmdKbdDis then .cKbddis
  else if b = c.cmdKbdEn then .cKbden
  else if b = c.cmdAuxDis then .cAuxdis
  else if b = c.cmdAuxEn then .cAuxen
  else if b = c.cmdAuxEcho then .cAuxecho
  else if b = c.cmdAuxSend then .cAuxsend
  else if c.cfgReadBase.toNat ≤ b.toNat ∧ b.toNat ≤ c.cfgReadBase.toNat + 31 then .cRdram (windowIndex c.cfgReadBase b)
  else if c.cfgWriteBase.toNat ≤ b.toNat ∧ b.toNat ≤ c.cfgWriteBase.toNat + 31 then .cWrram (windowIndex c.cfgWriteBase b)
  else .cUnrec b

/-- A key transition: `pressed` is the opcode (R60, R69). -/
def decodeKey (row col : Byte) (pressed : Bool) : Instr :=
  if pressed then .kPress row col else .kRelease row col

/-- A console request: the argument count is the opcode; two or more arguments are an override that its meaning rejects
(R60, R222). -/
def decodeCon (args : List ConArg) : Instr :=
  match args with
  | [] => .nReport
  | a :: rest => .nOverride (a :: rest)

/-- The transaction an item stands for, given the configuration and the mode (R62, R65). -/
def decode (c : Config) (m : Mode) : Arrival → Except DecodeError Instr
  | .data b => decodeData c m b
  | .cmd b => .ok (decodeCmd c b)
  | .key row col pressed => .ok (decodeKey row col pressed)
  | .con args => .ok (decodeCon args)

/-- The code of a well-formed instruction: the item that carries it, and the mode it must meet (`none`: any mode). -/
structure Encoded where
  mode : Option Mode
  arrival : Arrival
  deriving DecidableEq, Repr

/-- A `DATA` byte for a mode. -/
def onData (m : Mode) (b : Byte) : Encoded := ⟨some m, .data b⟩

/-- A `CMD` byte. -/
def onCmd (b : Byte) : Encoded := ⟨none, .cmd b⟩

/-- The item that stands for an instruction (R63, R64, R65, R69, R78). -/
def encode (c : Config) : Instr → Encoded
  | .dScanset => onData .normal 0xF0#8
  | .dSetleds => onData .normal 0xED#8
  | .dIdentify => onData .normal 0xF2#8
  | .dSetrate => onData .normal 0xF3#8
  | .dEnable => onData .normal 0xF4#8
  | .dDisable => onData .normal 0xF5#8
  | .dSetdefault => onData .normal 0xF6#8
  | .dReset => onData .normal 0xFF#8
  | .dResend => onData .normal 0xFE#8
  | .dQuirk60 => onData .normal 0x60#8
  | .dQuirk45 => onData .normal 0x45#8
  | .dUnsup b => onData .normal b
  | .dScansetGet => onData .awaitingScancodeSetValue c.scansetGet
  | .dScansetSet b => onData .awaitingScancodeSetValue b
  | .dLedValue b => onData .awaitingLedValue b
  | .dCfgValue b => onData .awaitingConfigByteValue b
  | .dEchoValue b => onData .echoToCaller b
  | .dAuxValue b => onData .forwardToSecondaryDevice b
  | .dRateValue b => onData .awaitingTypematicValue b
  | .cRdcfg => onCmd c.cmdReadCfg
  | .cWrcfg => onCmd c.cmdWriteCfg
  | .cKbddis => onCmd c.cmdKbdDis
  | .cKbden => onCmd c.cmdKbdEn
  | .cAuxdis => onCmd c.cmdAuxDis
  | .cAuxen => onCmd c.cmdAuxEn
  | .cAuxecho => onCmd c.cmdAuxEcho
  | .cAuxsend => onCmd c.cmdAuxSend
  | .cRdram i => onCmd (c.cfgReadBase + i.setWidth 8)
  | .cWrram i => onCmd (c.cfgWriteBase + i.setWidth 8)
  | .cUnrec b => onCmd b
  | .kPress row col => ⟨none, .key row col true⟩
  | .kRelease row col => ⟨none, .key row col false⟩
  | .nReport => ⟨none, .con []⟩
  | .nOverride args => ⟨none, .con args⟩

/-- Does an item, found in mode `m`, meet the mode its instruction needs? -/
def Encoded.meets (e : Encoded) (m : Mode) : Bool :=
  match e.mode with
  | none => true
  | some m' => m == m'

/-- The item that a word of spec/opcode_table.json stands for. DESIGN CHOICE (log 4): the table numbers a row's bits without
its port, so one value may stand in rows of several ports; 0 and 1 are read as the one-bit `pressed` field of a `KEY` row (row
and column 0), then a listed `DATA` code of `Normal` mode, then a listed `CMD` code, then an unsupported `DATA` byte. -/
def tableArrival (nbits w : Nat) : Arrival :=
  let b : Byte := BitVec.ofNat 8 w
  if nbits < 8 ∨ b = 0#8 ∨ b = 1#8 then .key 0 0 (b.getLsbD 0)
  else if decodeNormal b ≠ .dUnsup b then .data b
  else if decodeCmd Config.default b ≠ .cUnrec b then .cmd b
  else .data b

/-- The instruction the decoder reads from a word of spec/opcode_table.json, in `Normal` mode and the default configuration
the table is written for (R80; log 4). -/
def decodeTableWord (nbits w : Nat) : Option Instr :=
  (decode Config.default .normal (tableArrival nbits w)).toOption

end Sys2Proof
end

