-- ==== Sys2Proof/Machine/State.lean ====
section
/-!
DEFINITION. The state of EC-PS2 as plain data (spec/10_state.md R10), its stops, and the state right after reset (R30, R260).
-/

namespace Sys2Proof.Machine

/-- One event on the output ports (R8): a `TX` record with the port whose transaction made it, a `FLUSH` pulse, or what
`CON_OUT` prints. -/
inductive Output where
  /-- a record on `TX` (R48) -/
  | tx (port : Port) (bytes : List Byte)
  /-- one `reinit_host_buffer` pulse (R49) -/
  | flush
  /-- the console prints the value of `scancode_set` (R220) -/
  | conValue (set : Byte)
  /-- the console rejects the request (R221, R222) -/
  | conRejected
  deriving DecidableEq, Repr

/-- Why the machine stops with a fault: no reason exists. "Nothing in this core is fatal; there is no process-level abort
path" (R235), so the type has no constructor, nothing raises a fault, and this is safe. -/
inductive Fault where
  deriving DecidableEq, Repr

/-- Why a step is refused. -/
inductive Refusal where
  /-- raised by `exec` for an instruction without a meaning: no arm does; safe -/
  | notModelled (mnemonic : String)
  /-- raised by `step` when a `DATA` byte is found while `mode` is `AwaitingTypematicValue` in a configuration that does not
  have that mode (R11, R146): no run from reset meets it; safe -/
  | modeNotInConfiguration
  deriving DecidableEq, Repr

/-- The state record of one machine (R10), with its configuration (log 3), the items that have arrived (log 1) and the events
emitted (log 19). -/
structure State where
  /-- the parameters of R7; no step writes it -/
  config : Config
  /-- the items delivered and not yet processed, the next one first (R46, R50) -/
  inbox : List Arrival
  /-- `mode` (R11) -/
  mode : Mode
  /-- `scancode_set` (R13) -/
  scancodeSet : Byte
  /-- `enabled` (R15) -/
  enabled : Bool
  /-- `cfg[0..31]` (R17): the cells that differ from `CFG_RESET`, by rising index -/
  cfg : List Host.Cell
  /-- `cfg_addr` (R20) -/
  cfgAddr : CfgIndex
  /-- `rate_code` (R21) -/
  rateCode : Byte
  /-- `first_delay_ms` (R22) -/
  firstDelayMs : Nat
  /-- `inter_delay_ms` (R23) -/
  interDelayMs : Nat
  /-- `first_counter` (R24): no rule reads or writes it -/
  firstCounter : Nat
  /-- `inter_counter` (R24): no rule reads or writes it -/
  interCounter : Nat
  /-- the ResendBuffer, `resend_buf[0 .. resend_len-1]` (R25) -/
  resend : List Byte
  /-- the events emitted so far, the oldest first (R48, R49) -/
  out : List Output
  deriving DecidableEq, Repr

/-- The state after reset of a machine with configuration `c` (R30, R260): nothing delivered, nothing emitted (R261). -/
def State.resetWith (c : Config) : State where
  config := c
  inbox := []
  mode := .normal
  scancodeSet := resetScancodeSet
  enabled := c.resetEnabled
  cfg := []
  cfgAddr := resetCfgAddr
  rateCode := defaultRateCode
  firstDelayMs := defaultFirstDelayMs
  interDelayMs := defaultInterDelayMs
  firstCounter := Config.firstCounterReset
  interCounter := Config.interCounterReset
  resend := []
  out := []

/-- The state after reset (R30, R260), in the default configuration (R7). -/
def State.reset : State := State.resetWith Config.default

/-- What a meaning answers. -/
abbrev Result := Host.Outcome State Fault Refusal

end Sys2Proof.Machine
end

