-- ==== Sys2Proof/Machine/Flags.lean ====
section
/-!
DEFINITION. The flag computations of the block (spec/30_encoding.md R84 c): setting and clearing one bit of the command/status
byte `cfg[0]`. No transaction produces condition codes (spec/10_state.md R29).
-/

namespace Sys2Proof.Machine

/-- `1 << bit` at the width of a byte (R173). -/
def flagMask (bit : Fin 8) : Byte := 1#8 <<< bit.val

/-- `v | (1 << bit)` (R173, R175). -/
def setFlag (v : Byte) (bit : Fin 8) : Byte := v ||| flagMask bit

/-- `v & ~(1 << bit)` (R174, R176). -/
def clearFlag (v : Byte) (bit : Fin 8) : Byte := v &&& ~~~(flagMask bit)

end Sys2Proof.Machine
end

