-- ==== Sys2Proof/Machine/Memory.lean ====
section
/-!
DEFINITION. The controller RAM `cfg[0..31]` (spec/20_memory.md R40, R41, R44, R47) as a list of cells in canonical form:
indices strictly rising, each below 32, and no cell equal to what its index reads as when unlisted.
-/

namespace Sys2Proof.Machine

/-- What an index that no cell lists reads as: the configuration's `CFG_RESET` (R17; log 7). -/
def cfgUnlisted (c : Config) (a : Nat) : Byte := c.cfgReset.toList.getD a 0

/-- The byte a list of cells gives an address, if it lists it. -/
def cellLookup : List Host.Cell → Nat → Option Byte
  | [], _ => none
  | (k, v) :: rest, a => if k = a then some v else cellLookup rest a

/-- Put a cell in its place among cells of rising address. -/
def cellInsert (a : Nat) (b : Byte) : List Host.Cell → List Host.Cell
  | [] => [(a, b)]
  | (k, v) :: rest =>
    if a < k then (a, b) :: (k, v) :: rest
    else if a = k then (a, b) :: rest
    else (k, v) :: cellInsert a b rest

/-- Take an address out of a list of cells. -/
def cellErase (a : Nat) (m : List Host.Cell) : List Host.Cell := m.filter fun x => x.1 ≠ a

/-- Read one byte. -/
def memRead (c : Config) (m : List Host.Cell) (a : Nat) : Byte := (cellLookup m a).getD (cfgUnlisted c a)

/-- Write one byte, keeping the canonical form. -/
def memWrite (c : Config) (m : List Host.Cell) (a : Nat) (b : Byte) : List Host.Cell :=
  if b = cfgUnlisted c a then cellErase a m else cellInsert a b m

/-- The canonical form of the controller RAM. -/
def Memory.wf (c : Config) (m : List Host.Cell) : Bool :=
  decide (m.Pairwise fun x y => x.1 < y.1) && m.all fun x => x.1 < 32 && x.2 != cfgUnlisted c x.1

/-- `cfg[i]`: `MemRead(CFG, i, 1)` (00_scope.md section 6). -/
def State.readCfg (s : State) (i : CfgIndex) : Byte := memRead s.config s.cfg i.toNat

/-- `cfg[i] <- b`: `MemWrite(CFG, i, 1, b)` (00_scope.md section 6). -/
def State.writeCfg (i : CfgIndex) (b : Byte) (s : State) : State :=
  { s with cfg := memWrite s.config s.cfg i.toNat b }

end Sys2Proof.Machine
end

