-- ==== Sys2Proof/Machine/Operands.lean ====
section
/-!
DEFINITION. Operand forms: the fields of the rate byte (spec/30_encoding.md R66, R71), the bytes of a make code (R67), the
index of a make-code table (R71 f), the argument of a console override (spec/44_event_entry_and_console.md R221, R222).
-/

namespace Sys2Proof.Machine

/-- Field `M` of the rate byte, bits 6:5 (R66). -/
def rateM (b : Byte) : Nat := (b.extractLsb' 5 2).toNat

/-- Field `B` of the rate byte, bits 4:3 (R66). -/
def rateB (b : Byte) : Nat := (b.extractLsb' 3 2).toNat

/-- Field `D` of the rate byte, bits 2:0 (R66). -/
def rateD (b : Byte) : Nat := (b.extractLsb' 0 3).toNat

/-- `m[15:8]` (R67). -/
def makeHigh (m : MakeCode) : Byte := m.extractLsb' 8 8

/-- `m[7:0]` (R67). -/
def makeLow (m : MakeCode) : Byte := m.extractLsb' 0 8

/-- `MemRead(ROM, (r, c), 2)`: one entry of a make-code table (R40, R42). -/
def romRead (t : MakeTable) (row : Fin 8) (col : Fin 13) : MakeCode := t[row][col]

/-- The set an override names, if it is one the console accepts: one integer argument, 1 or 2 (R221, R222). -/
def overrideSet : List ConArg → Option Byte
  | [.int n] => if n = 1 then some 1#8 else if n = 2 then some 2#8 else none
  | _ => none

end Sys2Proof.Machine
end

