-- ==== Sys2Proof/Machine/Ops.lean ====
section
/-!
DEFINITION. The shared operations (spec/00_scope.md section 6): register writes, the outputs, the ResendBuffer, the typematic
unit, the recovery action, and the end of a transaction on each host channel.
-/

namespace Sys2Proof.Machine

/-- `ACK` (R70). -/
def ackByte : Byte := 0xFA#8

/-- `NAK` (R70). -/
def nakByte : Byte := 0xFE#8

/-- `ID_0` (R70). -/
def id0 : Byte := 0xAB#8

/-- `ID_1` (R70). -/
def id1 : Byte := 0x83#8

/-! ## Register writes -/

/-- `mode <- m` (R12). -/
def State.setMode (m : Mode) (s : State) : State := { s with mode := m }

/-- `scancode_set <- b` (R14). -/
def State.setScancodeSet (b : Byte) (s : State) : State := { s with scancodeSet := b }

/-- `enabled <- e` (R15). -/
def State.setEnabled (e : Bool) (s : State) : State := { s with enabled := e }

/-- `cfg_addr <- i` (R20). -/
def State.setCfgAddr (i : CfgIndex) (s : State) : State := { s with cfgAddr := i }

/-- The three registers of the typematic unit (R21, R22, R23). -/
def State.setTypematic (code : Byte) (first inter : Nat) (s : State) : State :=
  { s with rateCode := code, firstDelayMs := first, interDelayMs := inter }

/-- The arrivals still to be processed. -/
def State.setInbox (items : List Arrival) (s : State) : State := { s with inbox := items }

/-! ## Outputs -/

/-- The events of `emit TX(bytes)` on a port: an empty record is no record (R48). -/
def txEvents (p : Port) (bytes : List Byte) : List Output :=
  match bytes with
  | [] => []
  | b :: rest => [.tx p (b :: rest)]

/-- Append events to the output stream (R48). -/
def State.emit (evs : List Output) (s : State) : State := { s with out := s.out ++ evs }

/-- `emit TX(bytes)`, tagged with the port (R48). -/
def State.emitTx (p : Port) (bytes : List Byte) (s : State) : State := s.emit (txEvents p bytes)

/-- `emit FLUSH` (R49). -/
def State.emitFlush (s : State) : State := s.emit [.flush]

/-- What one event does to a transport's queue: a record appends its bytes, a flush empties it (R48, R49). DESIGN CHOICE (log 34):
records of every port share one queue without a capacity, which the spec leaves to the transport (R48, D2, U13). -/
def queueAfter (q : List Byte) : Output → List Byte
  | .tx _ bytes => q ++ bytes
  | .flush => []
  | .conValue _ => q
  | .conRejected => q

/-- The transport's queue of buffered-but-unsent bytes after these events, if it sends nothing (R28, R49, R269). Environment
state, outside the block. DESIGN CHOICE (log 34): one unbounded queue for responses and scan codes, empty before the first event,
where the spec leaves the number of queues, their capacity (R48, D2, U13) and their content after reset (R30) unspecified. -/
def transportQueue (evs : List Output) : List Byte := evs.foldl queueAfter []

/-! ## The ResendBuffer -/

/-- `capture(resp)`, when `on` (R150): an empty response leaves the buffer as it was. -/
def State.captureIf (on : Bool) (resp : List Byte) (s : State) : State :=
  { s with resend := if on && !resp.isEmpty then resp else s.resend }

/-- Does `RESEND_CAPTURE` capture the responses of operand bytes (R150)? -/
def capturesOperands : ResendCapture → Bool
  | .normalModeOnly => false
  | .allData => true
  | .all => true

/-- Does `RESEND_CAPTURE` capture the responses of `CMD` bytes (R150)? -/
def capturesCommands : ResendCapture → Bool
  | .normalModeOnly => false
  | .allData => false
  | .all => true

/-! ## The typematic unit -/

/-- The first-repeat delay of a rate byte, in milliseconds (R200). -/
def rateFirstDelay (b : Byte) : Nat := (rateM b + 1) * 250

/-- The inter-repeat delay of a rate byte, in milliseconds: one truncating division of the whole product (R200, R201). -/
def rateInterDelay (b : Byte) : Nat := 1000 * 2 ^ rateB b * (rateD b + 8) / 240

/-- `set_rate(b)` (R200). -/
def State.setRate (b : Byte) (s : State) : State := s.setTypematic b (rateFirstDelay b) (rateInterDelay b)

/-- `typematic_reset()` (R204). -/
def State.typematicReset (s : State) : State :=
  s.setTypematic defaultRateCode defaultFirstDelayMs defaultInterDelayMs

/-! ## Recovery: the block's exception -/

/-- `recover()` (R234, R238): device disabled, default timing, one `FLUSH`. Nothing is saved and `mode` is not changed. There
is no operation that returns from it (R239). -/
def State.recover (s : State) : State := (s.setEnabled false).typematicReset.emitFlush

/-! ## The end of a transaction -/

/-- The end of a `Normal`-mode `DATA` transaction: the response is captured, then emitted (R121, R150). -/
def State.respondNormal (resp : List Byte) (s : State) : State := (s.captureIf true resp).emitTx .data resp

/-- The end of an operand `DATA` transaction: the mode is `Normal` again (R122), the response is captured only under
`all_data` and `all` (R150), then emitted. -/
def State.respondOperand (resp : List Byte) (s : State) : State :=
  ((s.setMode .normal).captureIf (capturesOperands s.config.resendCapture) resp).emitTx .data resp

/-- The end of a `CMD` transaction: the response is captured only under `all` (R150, R181), then emitted. -/
def State.respondCmd (resp : List Byte) (s : State) : State :=
  (s.captureIf (capturesCommands s.config.resendCapture) resp).emitTx .cmd resp

/-! ## Fetching -/

/-- Take the next item that arrived, if there is one (R46, R50). -/
def fetch (s : State) : Option (Arrival × State) :=
  match s.inbox with
  | [] => none
  | a :: rest => some (a, s.setInbox rest)

end Sys2Proof.Machine
end

