-- ==== Sys2Proof/Machine/CommandChannel.lean ====
section
/-!
DEFINITION. The meanings of the `CMD` bytes (spec/42_command_channel.md R171 to R182). None reads `mode` (R170).
-/

namespace Sys2Proof.Machine

/-- `C.RDCFG` (R171). -/
def execCRdcfg (s : State) : Result := .next (s.respondCmd [s.readCfg 0#5])

/-- `C.WRCFG` (R172). -/
def execCWrcfg (s : State) : Result :=
  .next (((s.setCfgAddr 0#5).setMode .awaitingConfigByteValue).respondCmd [])

/-- `C.KBDDIS` (R173; log 9). -/
def execCKbddis (s : State) : Result :=
  .next ((s.writeCfg 0#5 (setFlag (s.readCfg 0#5) s.config.kbdDisBit)).respondCmd [])

/-- `C.KBDEN` (R174; log 9). -/
def execCKbden (s : State) : Result :=
  .next ((s.writeCfg 0#5 (clearFlag (s.readCfg 0#5) s.config.kbdDisBit)).respondCmd [])

/-- `C.AUXDIS` (R175; log 9). -/
def execCAuxdis (s : State) : Result :=
  .next ((s.writeCfg 0#5 (setFlag (s.readCfg 0#5) s.config.auxDisBit)).respondCmd [])

/-- `C.AUXEN` (R176; log 9). -/
def execCAuxen (s : State) : Result :=
  .next ((s.writeCfg 0#5 (clearFlag (s.readCfg 0#5) s.config.auxDisBit)).respondCmd [])

/-- `C.AUXECHO` (R177). -/
def execCAuxecho (s : State) : Result := .next ((s.setMode .echoToCaller).respondCmd [])

/-- `C.AUXSEND` (R178). -/
def execCAuxsend (s : State) : Result := .next ((s.setMode .forwardToSecondaryDevice).respondCmd [])

/-- `C.RDRAM` (R179). -/
def execCRdram (i : CfgIndex) (s : State) : Result := .next (s.respondCmd [s.readCfg i])

/-- `C.WRRAM` (R180). -/
def execCWrram (i : CfgIndex) (s : State) : Result :=
  .next (((s.setCfgAddr i).setMode .awaitingConfigByteValue).respondCmd [])

/-- `C.UNREC` (R182): a protocol violation; `mode` is unchanged (log 20) and the byte is not kept (R230). -/
def execCUnrec (_b : Byte) (s : State) : Result := .next (s.recover.respondCmd [nakByte])

end Sys2Proof.Machine
end

