-- ==== Sys2Proof/Machine/Console.lean ====
section
/-!
DEFINITION. The meanings of the console requests (spec/44_event_entry_and_console.md R219 to R222).
-/

namespace Sys2Proof.Machine

/-- What an accepted override prints: nothing, or the new value; the spec leaves it open (R221, U12; log 23). -/
def overrideEvents (c : Config) (set : Byte) : List Output :=
  if c.overridePrints then [.conValue set] else []

/-- `N.REPORT` (R220). -/
def execNReport (s : State) : Result := .next (s.emit [.conValue s.scancodeSet])

/-- `N.OVERRIDE` (R221, R222): one integer argument 1 or 2 is stored, anything else is rejected without a state change. -/
def execNOverride (args : List ConArg) (s : State) : Result :=
  .next (match overrideSet args with
    | some set => (s.setScancodeSet set).emit (overrideEvents s.config set)
    | none => s.emit [.conRejected])

end Sys2Proof.Machine
end

