-- ==== Sys2Proof/Machine/DataCommands.lean ====
section
/-!
DEFINITION. The meanings of the `DATA` bytes of `Normal` mode (spec/41_data_channel.md R126 to R138).
-/

namespace Sys2Proof.Machine

/-- `D.SCANSET` (R126). -/
def execDScanset (s : State) : Result := .next ((s.setMode .awaitingScancodeSetValue).respondNormal [ackByte])

/-- `D.SETLEDS` (R127). -/
def execDSetleds (s : State) : Result := .next ((s.setMode .awaitingLedValue).respondNormal [ackByte])

/-- `D.IDENTIFY` (R128). -/
def execDIdentify (s : State) : Result := .next (s.respondNormal [ackByte, id0, id1])

/-- `D.SETRATE` (R129): under `command_byte` the rate byte is the command byte 0xF3 itself, under `next_data_byte` the next
`DATA` byte is awaited (log 11). -/
def execDSetrate (s : State) : Result :=
  .next ((match s.config.typematicOperand with
    | .commandByte => s.setRate 0xF3#8
    | .nextDataByte => s.setMode .awaitingTypematicValue).respondNormal [ackByte])

/-- `D.ENABLE` (R130). -/
def execDEnable (s : State) : Result := .next ((s.setEnabled true).emitFlush.respondNormal [ackByte])

/-- `D.DISABLE` (R131). -/
def execDDisable (s : State) : Result :=
  .next ((s.setEnabled false).typematicReset.emitFlush.respondNormal [ackByte])

/-- `D.SETDEFAULT` (R132): `enabled` is not changed. -/
def execDSetdefault (s : State) : Result := .next (s.typematicReset.emitFlush.respondNormal [ackByte])

/-- `D.RESET` (R133): the device is disabled; no flush, no typematic reset (log 21). -/
def execDReset (s : State) : Result :=
  .next ((s.setEnabled false).respondNormal [ackByte, s.config.selftestPass0, s.config.selftestPass1])

/-- `D.RESEND` (R134): ACK and the buffer's contents; not captured (log 13). -/
def execDResend (s : State) : Result := .next (s.emitTx .data (ackByte :: s.resend))

/-- `D.QUIRK60` (R135): consumed silently. -/
def execDQuirk60 (s : State) : Result := .next (s.respondNormal [])

/-- `D.QUIRK45` (R136): consumed silently. -/
def execDQuirk45 (s : State) : Result := .next (s.respondNormal [])

/-- `D.UNSUP` (R138): a protocol violation; the offending byte is not kept (R230). -/
def execDUnsup (_b : Byte) (s : State) : Result := .next (s.recover.respondNormal [nakByte])

end Sys2Proof.Machine
end

