-- ==== Sys2Proof/Machine/DataOperands.lean ====
section
/-!
DEFINITION. The meanings of the operand bytes of the awaiting modes (spec/41_data_channel.md R140 to R146).
-/

namespace Sys2Proof.Machine

/-- `D.SCANSET.GET` (R140): the set-id is the register byte. -/
def execDScansetGet (s : State) : Result := .next (s.respondOperand [ackByte, s.scancodeSet])

/-- `D.SCANSET.SET` (R141): the byte is adopted without a check (log 26). -/
def execDScansetSet (b : Byte) (s : State) : Result := .next ((s.setScancodeSet b).respondOperand [ackByte])

/-- `D.LED.VALUE` (R142): the byte is discarded. -/
def execDLedValue (_b : Byte) (s : State) : Result := .next (s.respondOperand [ackByte])

/-- `D.CFG.VALUE` (R143): stored at the latched address. -/
def execDCfgValue (b : Byte) (s : State) : Result := .next ((s.writeCfg s.cfgAddr b).respondOperand [ackByte])

/-- `D.ECHO.VALUE` (R144): echoed unchanged, no ACK. -/
def execDEchoValue (b : Byte) (s : State) : Result := .next (s.respondOperand [b])

/-- `D.AUX.VALUE` (R145): consumed, no response (log 28). -/
def execDAuxValue (_b : Byte) (s : State) : Result := .next (s.respondOperand [])

/-- `D.RATE.VALUE` (R146). -/
def execDRateValue (b : Byte) (s : State) : Result := .next ((s.setRate b).respondOperand [ackByte])

end Sys2Proof.Machine
end

