-- ==== Sys2Proof/Machine/Encoder.lean ====
section
/-!
DEFINITION. The Scan Code Encoder (spec/40_scancode_encoder.md R100 to R110): a pure function of its arguments and the two
make-code tables.
-/

namespace Sys2Proof.Machine

/-- The encoder's errors (R100, R230). -/
inductive EncodeError where
  | outOfRange
  | unsupportedSet
  | noMapping
  deriving DecidableEq, Repr

/-- `BREAK_PREFIX` (R70, R105). -/
def breakPrefix : Byte := 0xF0#8

/-- `SET1_BREAK_BIT` (R7, R105). -/
def set1BreakBit : Byte := 0x80#8

/-- The table of a set: 1 is Set 1, 2 is Set 2, any other value is unsupported (R13, R102). -/
def scanTable (c : Config) (set : Byte) : Option MakeTable :=
  if set = 1#8 then some c.set1Table else if set = 2#8 then some c.set2Table else none

/-- Make emission (R104). -/
def makeBytes (m : MakeCode) : List Byte :=
  if 0x0100 ≤ m.toNat then [makeHigh m, makeLow m] else [makeLow m]

/-- The break transform of a set on an emitted sequence (R105): Set 1 ORs 0x80 into the last byte, Set 2 puts 0xF0 before it. -/
def breakBytes (set : Byte) (bytes : List Byte) : List Byte :=
  let last := bytes.getLastD 0
  if set = 1#8 then bytes.dropLast ++ [last ||| set1BreakBit] else bytes.dropLast ++ [breakPrefix, last]

/-- `encode(row, col, pressed, active_set)` (R107); the first error that applies, in the order of R100. -/
def scanEncode (c : Config) (row col : Byte) (pressed : Bool) (set : Byte) : Except EncodeError (List Byte) :=
  if h : row.toNat ≤ 7 ∧ col.toNat ≤ 12 then
    match scanTable c set with
    | none => .error .unsupportedSet
    | some t =>
      let m := romRead t ⟨row.toNat, Nat.lt_succ_of_le h.1⟩ ⟨col.toNat, Nat.lt_succ_of_le h.2⟩
      if m = 0#16 then .error .noMapping
      else .ok (if pressed then makeBytes m else breakBytes set (makeBytes m))
  else .error .outOfRange

/-- What a key event sends: the encoded bytes, or nothing on any error (R215, R230). -/
def keyBytes (r : Except EncodeError (List Byte)) : List Byte :=
  match r with
  | .ok bytes => bytes
  | .error _ => []

/-- `on_key_transition(row, col, pressed)` (R215): writes no register and reads only `scancode_set` and the tables. -/
def State.keyTransition (row col : Byte) (pressed : Bool) (s : State) : State :=
  s.emitTx .key (keyBytes (scanEncode s.config row col pressed s.scancodeSet))

end Sys2Proof.Machine
end

