-- ==== Sys2Proof/Machine/KeyEvents.lean ====
section
/-!
DEFINITION. The meanings of the key transitions (spec/44_event_entry_and_console.md R215 to R218).
-/

namespace Sys2Proof.Machine

/-- `K.PRESS` (R216). -/
def execKPress (row col : Byte) (s : State) : Result := .next (s.keyTransition row col true)

/-- `K.RELEASE` (R217). -/
def execKRelease (row col : Byte) (s : State) : Result := .next (s.keyTransition row col false)

end Sys2Proof.Machine
end

