-- ==== Sys2Proof/Machine/Dispatch.lean ====
section
/-!
DEFINITION. The dispatch from a decoded transaction to its meaning, one arm per row of spec/opcode_table.json.
-/

namespace Sys2Proof.Machine

/-- The effect of one transaction (R46). -/
def exec (i : Instr) (s : State) : Host.Outcome State Fault Refusal :=
  match i with
  | .dScanset => Sys2Proof.Machine.execDScanset s
  | .dSetleds => Sys2Proof.Machine.execDSetleds s
  | .dIdentify => Sys2Proof.Machine.execDIdentify s
  | .dSetrate => Sys2Proof.Machine.execDSetrate s
  | .dEnable => Sys2Proof.Machine.execDEnable s
  | .dDisable => Sys2Proof.Machine.execDDisable s
  | .dSetdefault => Sys2Proof.Machine.execDSetdefault s
  | .dReset => Sys2Proof.Machine.execDReset s
  | .dResend => Sys2Proof.Machine.execDResend s
  | .dQuirk60 => Sys2Proof.Machine.execDQuirk60 s
  | .dQuirk45 => Sys2Proof.Machine.execDQuirk45 s
  | .dUnsup b => Sys2Proof.Machine.execDUnsup b s
  | .dScansetGet => Sys2Proof.Machine.execDScansetGet s
  | .dScansetSet b => Sys2Proof.Machine.execDScansetSet b s
  | .dLedValue b => Sys2Proof.Machine.execDLedValue b s
  | .dCfgValue b => Sys2Proof.Machine.execDCfgValue b s
  | .dEchoValue b => Sys2Proof.Machine.execDEchoValue b s
  | .dAuxValue b => Sys2Proof.Machine.execDAuxValue b s
  | .dRateValue b => Sys2Proof.Machine.execDRateValue b s
  | .cRdcfg => Sys2Proof.Machine.execCRdcfg s
  | .cWrcfg => Sys2Proof.Machine.execCWrcfg s
  | .cKbddis => Sys2Proof.Machine.execCKbddis s
  | .cKbden => Sys2Proof.Machine.execCKbden s
  | .cAuxdis => Sys2Proof.Machine.execCAuxdis s
  | .cAuxen => Sys2Proof.Machine.execCAuxen s
  | .cAuxecho => Sys2Proof.Machine.execCAuxecho s
  | .cAuxsend => Sys2Proof.Machine.execCAuxsend s
  | .cRdram idx => Sys2Proof.Machine.execCRdram idx s
  | .cWrram idx => Sys2Proof.Machine.execCWrram idx s
  | .cUnrec b => Sys2Proof.Machine.execCUnrec b s
  | .kPress row col => Sys2Proof.Machine.execKPress row col s
  | .kRelease row col => Sys2Proof.Machine.execKRelease row col s
  | .nReport => Sys2Proof.Machine.execNReport s
  | .nOverride args => Sys2Proof.Machine.execNOverride args s

end Sys2Proof.Machine
end

