-- ==== Sys2Proof/Machine/Step.lean ====
section
/-!
DEFINITION. One step: the next item that arrived is taken, decoded and processed to completion (spec/00_scope.md R8,
spec/20_memory.md R46). With nothing delivered the block waits (spec/30_encoding.md R83).
-/

namespace Sys2Proof.Machine

/-- The stop of an item that is not decoded. -/
def refusalOf : DecodeError → Refusal
  | .noSuchMode => .modeNotInConfiguration

/-- One step of the block. -/
def step (s : State) : Host.Outcome State Fault Refusal :=
  match fetch s with
  | none => .next s
  | some (a, s') =>
    match decode s.config s.mode a with
    | .ok i => exec i s'
    | .error e => .refused (refusalOf e)

/-- `s` with the item of a table word delivered first (log 2, 4). A `DATA` row of the table words is a `Normal`-mode row, so a
`DATA` item is delivered to `mode = Normal`. -/
def State.withFetchWord (s : State) (nbits w : Nat) : State :=
  match tableArrival nbits w with
  | .data b => { s with inbox := .data b :: s.inbox, mode := .normal }
  | a => { s with inbox := a :: s.inbox }

end Sys2Proof.Machine
end

