-- ==== Sys2Proof/Safety.lean ====
section
/-!
DEFINITION. What every state of a run is to satisfy, and the words the statements about runs use.
-/

namespace Sys2Proof.Machine

/-- The invariant of the block: its configuration is one the spec admits, its mode is one the configuration has (R11), the
controller RAM is in canonical form (R40, R44), the two delays are those of the stored rate byte (R200, R205), the ResendBuffer
fits (R25), and every record emitted is non-empty, no longer than `MAX_SCAN_CODE_LEN + 1`, and never from the console (R8, R48,
R219). -/
structure State.Inv (s : State) : Prop where
  config_wf : s.config.wf = true
  mode_legal : s.mode = .awaitingTypematicValue → s.config.typematicOperand = .nextDataByte
  cfg_wf : Memory.wf s.config s.cfg = true
  first_delay : s.firstDelayMs = rateFirstDelay s.rateCode
  inter_delay : s.interDelayMs = rateInterDelay s.rateCode
  resend_fits : s.resend.length ≤ s.config.maxScanCodeLen
  records : ∀ p bytes, Output.tx p bytes ∈ s.out →
    bytes ≠ [] ∧ bytes.length ≤ s.config.maxScanCodeLen + 1 ∧ p ≠ .con

/-- Under `RESEND_CAPTURE = normal_mode_only`, does this item, found in mode `m`, overwrite the ResendBuffer (R150)? -/
def capturing (m : Mode) : Arrival → Bool
  | .data b => m == .normal && b != 0xFE#8 && b != 0x60#8 && b != 0x45#8
  | .cmd _ => false
  | .key _ _ _ => false
  | .con _ => false

/-- A run in which no item overwrites the ResendBuffer: what may stand between a response and the resend command (R151). -/
inductive QuietRun : State → State → Prop where
  | refl (s : State) : QuietRun s s
  | head {s t u : State} : step s = .next t → (∀ a rest, s.inbox = a :: rest → capturing s.mode a = false) →
      QuietRun t u → QuietRun s u

/-- The transactions that raise `FLUSH` (R52). -/
def flushing : Instr → Bool
  | .dEnable | .dDisable | .dSetdefault | .dUnsup _ | .cUnrec _ => true
  | .dScanset | .dSetleds | .dIdentify | .dSetrate | .dReset | .dResend | .dQuirk60 | .dQuirk45 => false
  | .dScansetGet | .dScansetSet _ | .dLedValue _ | .dCfgValue _ | .dEchoValue _ | .dAuxValue _ | .dRateValue _ => false
  | .cRdcfg | .cWrcfg | .cKbddis | .cKbden | .cAuxdis | .cAuxen | .cAuxecho | .cAuxsend | .cRdram _ | .cWrram _ => false
  | .kPress _ _ | .kRelease _ _ | .nReport | .nOverride _ => false

end Sys2Proof.Machine
end

