-- ==== Sys2Proof/Certificates/Slice0/Obligations.lean ====
section
/-!
DEFINITION. The statements for the provers. Each docstring names the rules of spec/ it formalises; where a clause rests on a
decision the spec marks as its own, or on an entry of the assumption log, the docstring says so.
-/

open Sys2Proof Sys2Proof.Machine

/-! ## Encoding -/

/-- A few items written out from R63, R64, R65 (command codes at the defaults of D10), R69 and R60 decode to the transaction
they stand for. -/
def Obligations.SampleItemsDecode : Prop :=
  decode Config.default .normal (.data 0xF0#8) = .ok .dScanset ∧
  decode Config.default .normal (.data 0x99#8) = .ok (.dUnsup 0x99#8) ∧
  decode Config.default .awaitingLedValue (.data 0x07#8) = .ok (.dLedValue 0x07#8) ∧
  decode Config.default .echoToCaller (.cmd 0x25#8) = .ok (.cRdram 5#5) ∧
  decode Config.default .normal (.cmd 0x7F#8) = .ok (.cWrram 31#5) ∧
  decode Config.default .normal (.key 0#8 1#8 true) = .ok (.kPress 0#8 1#8) ∧
  decode Config.default .normal (.key 7#8 12#8 false) = .ok (.kRelease 7#8 12#8) ∧
  decode Config.default .normal (.con []) = .ok .nReport ∧
  decode Config.default .normal (.con [.int 3]) = .ok (.nOverride [.int 3])

/-- R62: a `DATA` byte is decoded first by `mode` (the operand rule of R64, where only `SCANSET_GET` selects anything), then, in
`Normal` mode only, by value through the map of R63; every (mode, byte) pair of the configuration has exactly one rule. In the two
maps, that 0xF0 selects the set and 0xF2 identifies is conflict C1, that 0xED is the only LED code, so that 0xEB is unsupported, is
the spec's decision D19 (log 25), and the seventh mode is the spec's decision D5, from general knowledge (log 11). -/
def Obligations.DataByteDecodesInTwoLevels : Prop :=
  ∀ (c : Config) (b : Byte),
    (decode c .awaitingScancodeSetValue (.data b) = .ok (if b = c.scansetGet then .dScansetGet else .dScansetSet b) ∧
      decode c .awaitingLedValue (.data b) = .ok (.dLedValue b) ∧
      decode c .awaitingConfigByteValue (.data b) = .ok (.dCfgValue b) ∧
      decode c .echoToCaller (.data b) = .ok (.dEchoValue b) ∧
      decode c .forwardToSecondaryDevice (.data b) = .ok (.dAuxValue b) ∧
      (c.typematicOperand = .nextDataByte → decode c .awaitingTypematicValue (.data b) = .ok (.dRateValue b))) ∧
    (∀ i, (b, i) ∈ [(0xF0#8, Instr.dScanset), (0xED#8, .dSetleds), (0xF2#8, .dIdentify), (0xF3#8, .dSetrate),
        (0xF4#8, .dEnable), (0xF5#8, .dDisable), (0xF6#8, .dSetdefault), (0xFF#8, .dReset), (0xFE#8, .dResend),
        (0x60#8, .dQuirk60), (0x45#8, .dQuirk45)] → decode c .normal (.data b) = .ok i) ∧
    (b ∉ [0xF0#8, 0xED#8, 0xF2#8, 0xF3#8, 0xF4#8, 0xF5#8, 0xF6#8, 0xFF#8, 0xFE#8, 0x60#8, 0x45#8] →
      decode c .normal (.data b) = .ok (.dUnsup b))

/-- R65: the `CMD` map, all 256 values, whatever the mode. The code values are the spec's general-knowledge defaults (D10,
log 8). -/
def Obligations.CommandByteMapAtDefaults : Prop :=
  ∀ (m : Mode) (b : Byte),
    (∀ i, (b, i) ∈ [(0x20#8, Instr.cRdcfg), (0x60#8, .cWrcfg), (0xA7#8, .cAuxdis), (0xA8#8, .cAuxen), (0xAD#8, .cKbddis),
        (0xAE#8, .cKbden), (0xD3#8, .cAuxecho), (0xD4#8, .cAuxsend)] → decode Config.default m (.cmd b) = .ok i) ∧
    (0x21 ≤ b.toNat ∧ b.toNat ≤ 0x3F → decode Config.default m (.cmd b) = .ok (.cRdram (b.extractLsb' 0 5))) ∧
    (0x61 ≤ b.toNat ∧ b.toNat ≤ 0x7F → decode Config.default m (.cmd b) = .ok (.cWrram (b.extractLsb' 0 5))) ∧
    (b.toNat ≤ 0x1F ∨ (0x40 ≤ b.toNat ∧ b.toNat ≤ 0x5F) ∨ (0x80 ≤ b.toNat ∧ b.toNat ≤ 0xA6) ∨
        (0xA9 ≤ b.toNat ∧ b.toNat ≤ 0xAC) ∨ (0xAF ≤ b.toNat ∧ b.toNat ≤ 0xD2) ∨ 0xD5 ≤ b.toNat →
      decode Config.default m (.cmd b) = .ok (.cUnrec b))

/-- Decode and encode agree: in every admitted configuration, for every well-formed transaction with every operand, decoding
the item that encodes it, in a mode it meets, gives it back (R62 to R65, R69, R71, R181). -/
def Obligations.DecodeInvertsEncode : Prop :=
  ∀ (c : Config) (i : Instr) (m : Mode), c.wf = true → WellFormed c i = true → (encode c i).meets m = true →
    decode c m (encode c i).arrival = .ok i

/-- The other direction: whatever an item decodes to is well formed, is encoded by that very item, and meets the mode it was
found in, so no two items of one port and mode share a meaning (R62, R72). -/
def Obligations.EncodeInvertsDecode : Prop :=
  ∀ (c : Config) (m : Mode) (a : Arrival) (i : Instr), c.wf = true → decode c m a = .ok i →
    WellFormed c i = true ∧ (encode c i).arrival = a ∧ (encode c i).meets m = true

/-- A step takes the next item, decodes it under the mode it finds and runs that transaction on the state without the item
(R46, R62); with nothing delivered it waits (R83; log 1). -/
def Obligations.StepRunsDecodedItem : Prop :=
  ∀ (s : State),
    (s.inbox = [] → step s = .next s) ∧
    (∀ a rest i, s.inbox = a :: rest → decode s.config s.mode a = .ok i → step s = exec i { s with inbox := rest })

/-! ## The `DATA` commands of `Normal` mode -/

/-- R126: `D.SCANSET` answers ACK, captures it and awaits the set value; nothing else changes. -/
def Obligations.ScansetCommandAwaitsValue : Prop :=
  ∀ s : State, decode s.config .normal (.data 0xF0#8) = .ok .dScanset ∧
    exec .dScanset s = .next { s with
      mode := .awaitingScancodeSetValue, resend := [0xFA#8], out := s.out ++ [.tx .data [0xFA#8]] }

/-- R127: `D.SETLEDS` answers ACK, captures it and awaits the LED byte; only 0xED selects it (the spec's decision D19,
log 25). -/
def Obligations.SetLedsCommandAwaitsLedByte : Prop :=
  ∀ s : State, (∀ b, decode s.config .normal (.data b) = .ok .dSetleds ↔ b = 0xED#8) ∧
    exec .dSetleds s = .next { s with
      mode := .awaitingLedValue, resend := [0xFA#8], out := s.out ++ [.tx .data [0xFA#8]] }

/-- R128: `D.IDENTIFY` answers ACK and the two identity bytes and captures them; nothing else changes. -/
def Obligations.IdentifyAnswersIdentityBytes : Prop :=
  ∀ s : State, decode s.config .normal (.data 0xF2#8) = .ok .dIdentify ∧
    exec .dIdentify s = .next { s with
      resend := [0xFA#8, 0xAB#8, 0x83#8], out := s.out ++ [.tx .data [0xFA#8, 0xAB#8, 0x83#8]] }

/-- R129, both variants of `TYPEMATIC_OPERAND` (the spec's decision D5, log 11): under `command_byte` the command byte 0xF3 is
itself the rate byte, under `next_data_byte` the rate byte is awaited and the timing is unchanged. -/
def Obligations.SetRateCommandBothVariants : Prop :=
  ∀ s : State, decode s.config .normal (.data 0xF3#8) = .ok .dSetrate ∧
    (s.config.typematicOperand = .commandByte → exec .dSetrate s = .next { s with
      rateCode := 0xF3#8, firstDelayMs := 1000, interDelayMs := 183,
      resend := [0xFA#8], out := s.out ++ [.tx .data [0xFA#8]] }) ∧
    (s.config.typematicOperand = .nextDataByte → exec .dSetrate s = .next { s with
      mode := .awaitingTypematicValue, resend := [0xFA#8], out := s.out ++ [.tx .data [0xFA#8]] })

/-- R130: `D.ENABLE` enables, flushes, then answers ACK, whether or not the device was enabled; nothing else changes. -/
def Obligations.EnableFlushesAndAcks : Prop :=
  ∀ s : State, decode s.config .normal (.data 0xF4#8) = .ok .dEnable ∧
    exec .dEnable s = .next { s with
      enabled := true, resend := [0xFA#8], out := s.out ++ [.flush, .tx .data [0xFA#8]] }

/-- R131: `D.DISABLE` disables, restores the default timing, flushes, then answers ACK; nothing else changes. -/
def Obligations.DisableRestoresTimingAndFlushes : Prop :=
  ∀ s : State, decode s.config .normal (.data 0xF5#8) = .ok .dDisable ∧
    exec .dDisable s = .next { s with
      enabled := false, rateCode := 0x2B#8, firstDelayMs := 500, interDelayMs := 91,
      resend := [0xFA#8], out := s.out ++ [.flush, .tx .data [0xFA#8]] }

/-- R132: `D.SETDEFAULT` restores the default timing, flushes, then answers ACK; `enabled` is not changed. -/
def Obligations.SetDefaultKeepsEnabled : Prop :=
  ∀ s : State, decode s.config .normal (.data 0xF6#8) = .ok .dSetdefault ∧
    exec .dSetdefault s = .next { s with
      rateCode := 0x2B#8, firstDelayMs := 500, interDelayMs := 91,
      resend := [0xFA#8], out := s.out ++ [.flush, .tx .data [0xFA#8]] }

/-- R133: `D.RESET` disables the device and answers ACK and the two self-test bytes, whatever they are (D6, log 5); no flush, no
timing reset, nothing else (the spec's decision D23, log 21). -/
def Obligations.ResetCommandAnswersSelfTest : Prop :=
  ∀ s : State, decode s.config .normal (.data 0xFF#8) = .ok .dReset ∧
    exec .dReset s = .next { s with
      enabled := false, resend := [0xFA#8, s.config.selftestPass0, s.config.selftestPass1],
      out := s.out ++ [.tx .data [0xFA#8, s.config.selftestPass0, s.config.selftestPass1]] }

/-- R134: `D.RESEND` answers ACK followed by the ResendBuffer and changes no register (the leading ACK is the spec's decision
D8, log 13). -/
def Obligations.ResendReplaysBuffer : Prop :=
  ∀ s : State, decode s.config .normal (.data 0xFE#8) = .ok .dResend ∧
    exec .dResend s = .next { s with out := s.out ++ [.tx .data (0xFA#8 :: s.resend)] }

/-- R135, R136: the bytes 0x60 and 0x45 in `Normal` mode write nothing and emit nothing. The last clause, that 0x60 on the `CMD`
port is the write-config command, is one of the default configuration: the code is the spec's general-knowledge default (D10,
PRESUMED, log 8). -/
def Obligations.QuirkBytesAreSilent : Prop :=
  ∀ s : State,
    decode s.config .normal (.data 0x60#8) = .ok .dQuirk60 ∧ exec .dQuirk60 s = .next s ∧
    decode s.config .normal (.data 0x45#8) = .ok .dQuirk45 ∧ exec .dQuirk45 s = .next s ∧
    decode Config.default .normal (.cmd 0x60#8) = .ok .cWrcfg

/-- R138: every other byte in `Normal` mode disables the device, restores the default timing, flushes and answers NAK, which is
captured, so that a resend right after gives `[0xFA, 0xFE]`; nothing else changes. -/
def Obligations.UnsupportedDataByteRecovers : Prop :=
  ∀ (s : State) (b : Byte),
    b ∉ [0xF0#8, 0xED#8, 0xF2#8, 0xF3#8, 0xF4#8, 0xF5#8, 0xF6#8, 0xFF#8, 0xFE#8, 0x60#8, 0x45#8] →
    decode s.config .normal (.data b) = .ok (.dUnsup b) ∧
    ∃ t, exec (.dUnsup b) s = .next t ∧
      t = { s with
        enabled := false, rateCode := 0x2B#8, firstDelayMs := 500, interDelayMs := 91,
        resend := [0xFE#8], out := s.out ++ [.flush, .tx .data [0xFE#8]] } ∧
      exec .dResend t = .next { t with out := t.out ++ [.tx .data [0xFA#8, 0xFE#8]] }

/-! ## Operand bytes -/

/-- R140, R141: in `AwaitingScancodeSetValue` the sentinel reports the register byte, any other byte is stored unchecked; the
mode is `Normal` again. The response is captured only under `all_data` and `all` (R150; the spec's decisions D3, D4, D7). -/
def Obligations.ScansetOperandGetsOrSets : Prop :=
  ∀ (s : State) (b : Byte),
    exec .dScansetGet s = .next { s with
      mode := .normal,
      resend := if s.config.resendCapture = .normalModeOnly then s.resend else [0xFA#8, s.scancodeSet],
      out := s.out ++ [.tx .data [0xFA#8, s.scancodeSet]] } ∧
    exec (.dScansetSet b) s = .next { s with
      scancodeSet := b, mode := .normal,
      resend := if s.config.resendCapture = .normalModeOnly then s.resend else [0xFA#8],
      out := s.out ++ [.tx .data [0xFA#8]] }

/-- R142, R144, R145: the LED byte is discarded and acknowledged, the echo byte comes back alone, the byte for the secondary
device is consumed without a response; the mode is `Normal` again and nothing else changes but, under `all_data` and `all`, the
ResendBuffer (R150; the spec's decisions D7, D25). -/
def Obligations.LedEchoAuxOperandsConsumed : Prop :=
  ∀ (s : State) (b : Byte),
    exec (.dLedValue b) s = .next { s with
      mode := .normal, resend := if s.config.resendCapture = .normalModeOnly then s.resend else [0xFA#8],
      out := s.out ++ [.tx .data [0xFA#8]] } ∧
    exec (.dEchoValue b) s = .next { s with
      mode := .normal, resend := if s.config.resendCapture = .normalModeOnly then s.resend else [b],
      out := s.out ++ [.tx .data [b]] } ∧
    exec (.dAuxValue b) s = .next { s with mode := .normal }

/-- R143: the operand is stored at the latched address and nowhere else, with ACK on the `DATA` port; the mode is `Normal` again,
`cfg_addr` keeps its value and nothing else changes but, under `all_data` and `all`, the ResendBuffer (R150, D7). -/
def Obligations.CfgOperandStoredAtLatchedAddress : Prop :=
  ∀ (s : State) (b : Byte), ∃ t, exec (.dCfgValue b) s = .next t ∧
    t.readCfg s.cfgAddr = b ∧ (∀ k, k ≠ s.cfgAddr → t.readCfg k = s.readCfg k) ∧
    t = { s with
      cfg := t.cfg, mode := .normal,
      resend := if s.config.resendCapture = .normalModeOnly then s.resend else [0xFA#8],
      out := s.out ++ [.tx .data [0xFA#8]] }

/-- R146 (the spec's decision D5): the rate operand sets the three typematic registers by the formula of R200 and is
acknowledged; nothing else changes but the mode and, under `all_data` and `all`, the ResendBuffer (R150, D7). -/
def Obligations.RateOperandSetsTiming : Prop :=
  ∀ (s : State) (b : Byte),
    exec (.dRateValue b) s = .next { s with
      rateCode := b, firstDelayMs := (b.toNat / 32 % 4 + 1) * 250,
      interDelayMs := 1000 * 2 ^ (b.toNat / 8 % 4) * (b.toNat % 8 + 8) / 240,
      mode := .normal, resend := if s.config.resendCapture = .normalModeOnly then s.resend else [0xFA#8],
      out := s.out ++ [.tx .data [0xFA#8]] }

/-! ## The command channel -/

/-- R171, R179: the two reads answer the raw byte with no ACK and change nothing but, under `RESEND_CAPTURE = all`, the
ResendBuffer (R150, D7; codes D10); `C.RDCFG` equals `C.RDRAM` with index 0. -/
def Obligations.ConfigReadsAnswerRawByte : Prop :=
  ∀ (s : State) (i : CfgIndex),
    exec (.cRdram i) s = .next { s with
      resend := if s.config.resendCapture = .all then [s.readCfg i] else s.resend,
      out := s.out ++ [.tx .cmd [s.readCfg i]] } ∧
    exec .cRdcfg s = .next { s with
      resend := if s.config.resendCapture = .all then [s.readCfg 0#5] else s.resend,
      out := s.out ++ [.tx .cmd [s.readCfg 0#5]] }

/-- R172: `C.WRCFG` latches address 0 and awaits the value, whatever the mode was; no output, nothing else changes; twice is
the same as once. -/
def Obligations.WriteConfigLatchesZero : Prop :=
  ∀ s : State, (s.config.wf = true → ∀ m, decode s.config m (.cmd s.config.cmdWriteCfg) = .ok .cWrcfg) ∧
    exec .cWrcfg s = .next { s with cfgAddr := 0#5, mode := .awaitingConfigByteValue } ∧
    exec .cWrcfg { s with cfgAddr := 0#5, mode := .awaitingConfigByteValue } =
      .next { s with cfgAddr := 0#5, mode := .awaitingConfigByteValue }

/-- R180: `C.WRRAM` latches its index and awaits the value; no output, nothing else changes (codes: D10, log 8). -/
def Obligations.IndexedWriteLatchesIndex : Prop :=
  ∀ (s : State) (i : CfgIndex),
    exec (.cWrram i) s = .next { s with cfgAddr := i, mode := .awaitingConfigByteValue }

/-- R173 to R176: the four flag commands set or clear one bit of `cfg[0]` (the reading of "flip" and the positions are the
spec's decision D11, log 9); its other bits, every other cell and every register are unchanged and nothing is emitted. -/
def Obligations.FlagCommandsTouchOneBit : Prop :=
  ∀ (s : State) (i : Instr) (bit : Fin 8) (v : Bool),
    (i, bit, v) ∈ [(Instr.cKbddis, s.config.kbdDisBit, true), (.cKbden, s.config.kbdDisBit, false),
      (.cAuxdis, s.config.auxDisBit, true), (.cAuxen, s.config.auxDisBit, false)] →
    ∃ t, exec i s = .next t ∧
      (∀ k, k < 8 → (t.readCfg 0#5).getLsbD k = if k = bit.val then v else (s.readCfg 0#5).getLsbD k) ∧
      (∀ j, j ≠ 0#5 → t.readCfg j = s.readCfg j) ∧
      t = { s with cfg := t.cfg }

/-- R177, R178: the two auxiliary commands enter their mode, emit nothing and change nothing else. -/
def Obligations.AuxCommandsEnterTheirMode : Prop :=
  ∀ s : State,
    (s.config.wf = true → ∀ m, decode s.config m (.cmd s.config.cmdAuxEcho) = .ok .cAuxecho ∧
      decode s.config m (.cmd s.config.cmdAuxSend) = .ok .cAuxsend) ∧
    exec .cAuxecho s = .next { s with mode := .echoToCaller } ∧
    exec .cAuxsend s = .next { s with mode := .forwardToSecondaryDevice }

/-- R182: an unrecognised `CMD` byte disables the device, restores the default timing, flushes and answers NAK; the mode is
unchanged (the spec's decision D17, log 20), the NAK is captured only under `all` (R150, D7), nothing else changes. -/
def Obligations.UnrecognisedCommandRecovers : Prop :=
  ∀ (s : State) (b : Byte),
    exec (.cUnrec b) s = .next { s with
      enabled := false, rateCode := 0x2B#8, firstDelayMs := 500, interDelayMs := 91,
      resend := if s.config.resendCapture = .all then [0xFE#8] else s.resend,
      out := s.out ++ [.flush, .tx .cmd [0xFE#8]] }

/-! ## Key transitions and the console -/

/-- R216: a press sends the make code of the selected table, one byte below 0x0100, else two, high byte first; outside the
geometry, in an unsupported set or at an unmapped position it does nothing at all. No register changes. -/
def Obligations.PressSendsMakeCode : Prop :=
  ∀ (s : State) (row col : Byte),
    (¬(row.toNat < 8 ∧ col.toNat < 13) ∨ (s.scancodeSet ≠ 1#8 ∧ s.scancodeSet ≠ 2#8) →
      exec (.kPress row col) s = .next s) ∧
    ∀ (hr : row.toNat < 8) (hc : col.toNat < 13) (t : MakeTable),
      (s.scancodeSet = 1#8 ∧ t = s.config.set1Table) ∨ (s.scancodeSet = 2#8 ∧ t = s.config.set2Table) →
      let m := (t[row.toNat]'hr)[col.toNat]'hc
      (m = 0#16 → exec (.kPress row col) s = .next s) ∧
      (m ≠ 0#16 ∧ m.toNat < 0x100 → exec (.kPress row col) s = .next { s with
        out := s.out ++ [.tx .key [m.setWidth 8]] }) ∧
      (0x100 ≤ m.toNat → exec (.kPress row col) s = .next { s with
        out := s.out ++ [.tx .key [(m >>> 8).setWidth 8, m.setWidth 8]] })

/-- R217: a release sends, in Set 1, the make code with 0x80 ORed into its last byte, in Set 2, the make code with 0xF0 before
its last byte; outside the geometry, in an unsupported set or at an unmapped position it does nothing at all. No register
changes. -/
def Obligations.ReleaseSendsBreakCode : Prop :=
  ∀ (s : State) (row col : Byte),
    (¬(row.toNat < 8 ∧ col.toNat < 13) ∨ (s.scancodeSet ≠ 1#8 ∧ s.scancodeSet ≠ 2#8) →
      exec (.kRelease row col) s = .next s) ∧
    ∀ (hr : row.toNat < 8) (hc : col.toNat < 13),
      (s.scancodeSet = 1#8 →
        let m := (s.config.set1Table[row.toNat]'hr)[col.toNat]'hc
        (m = 0#16 → exec (.kRelease row col) s = .next s) ∧
        (m ≠ 0#16 ∧ m.toNat < 0x100 → exec (.kRelease row col) s = .next { s with
          out := s.out ++ [.tx .key [m.setWidth 8 ||| 0x80#8]] }) ∧
        (0x100 ≤ m.toNat → exec (.kRelease row col) s = .next { s with
          out := s.out ++ [.tx .key [(m >>> 8).setWidth 8, m.setWidth 8 ||| 0x80#8]] })) ∧
      (s.scancodeSet = 2#8 →
        let m := (s.config.set2Table[row.toNat]'hr)[col.toNat]'hc
        (m = 0#16 → exec (.kRelease row col) s = .next s) ∧
        (m ≠ 0#16 ∧ m.toNat < 0x100 → exec (.kRelease row col) s = .next { s with
          out := s.out ++ [.tx .key [0xF0#8, m.setWidth 8]] }) ∧
        (0x100 ≤ m.toNat → exec (.kRelease row col) s = .next { s with
          out := s.out ++ [.tx .key [(m >>> 8).setWidth 8, 0xF0#8, m.setWidth 8]] }))

/-- R220: a console request without an argument prints the register byte and changes nothing. -/
def Obligations.ConsoleReportPrintsSet : Prop :=
  ∀ s : State, decode s.config s.mode (.con []) = .ok .nReport ∧
    exec .nReport s = .next { s with out := s.out ++ [.conValue s.scancodeSet] }

/-- R221, R222 (the spec's decision D26): one integer argument 1 or 2 is stored, and whether it also prints is left open
(log 23); every other request with an argument is rejected, and a rejection changes no register. -/
def Obligations.ConsoleOverrideAcceptsOneAndTwo : Prop :=
  ∀ (s : State) (args : List ConArg),
    (∀ n v, (n, v) ∈ [((1 : Int), 1#8), (2, 2#8)] → args = [.int n] →
      ∃ printed, (printed = [] ∨ printed = [.conValue v]) ∧
        exec (.nOverride args) s = .next { s with scancodeSet := v, out := s.out ++ printed }) ∧
    (args ≠ [.int 1] → args ≠ [.int 2] →
      exec (.nOverride args) s = .next { s with out := s.out ++ [.conRejected] })

/-! ## The typematic unit -/

/-- R200: `set_rate(b)` stores the byte and sets both delays by the formula, one truncating division of the whole product; no
other register changes. -/
def Obligations.SetRateFollowsFormula : Prop :=
  ∀ (s : State) (b : Byte),
    s.setRate b = { s with
      rateCode := b, firstDelayMs := (b.toNat / 32 % 4 + 1) * 250,
      interDelayMs := 1000 * 2 ^ (b.toNat / 8 % 4) * (b.toNat % 8 + 8) / 240 }

/-- R202: the two lookup tables. -/
def Obligations.RateTablesMatch : Prop :=
  ∀ b : Byte,
    [250, 500, 750, 1000][b.toNat / 32 % 4]? = some (rateFirstDelay b) ∧
    [33, 37, 41, 45, 50, 54, 58, 62, 66, 75, 83, 91, 100, 108, 116, 125,
      133, 150, 166, 183, 200, 216, 233, 250, 266, 300, 333, 366, 400, 433, 466, 500][b.toNat % 32]? =
      some (rateInterDelay b)

/-- R207, R201: the inter-repeat delay is strictly increasing in `b[4:0]` and lies in 33..500; each delay depends on its own
fields only, and bit 7 on neither. -/
def Obligations.RateDelaysOrderedAndIndependent : Prop :=
  ∀ a b : Byte,
    (a.toNat % 32 < b.toNat % 32 → rateInterDelay a < rateInterDelay b) ∧
    (a.toNat % 32 = b.toNat % 32 → rateInterDelay a = rateInterDelay b) ∧
    (a.toNat / 32 % 4 = b.toNat / 32 % 4 → rateFirstDelay a = rateFirstDelay b) ∧
    33 ≤ rateInterDelay a ∧ rateInterDelay a ≤ 500 ∧ rateFirstDelay a ∈ [250, 500, 750, 1000]

/-- R205 (the spec's decision D14, log 17): the default delays are those of exactly two rate bytes, and the default byte is the
one with bit 7 clear, so `typematic_reset` is `set_rate` of it. -/
def Obligations.DefaultRateByteIsUnique : Prop :=
  (∀ b : Byte, rateFirstDelay b = 500 ∧ rateInterDelay b = 91 ↔ b = 0x2B#8 ∨ b = 0xAB#8) ∧
  ∀ s : State, s.typematicReset = s.setRate 0x2B#8

/-! ## The Scan Code Encoder -/

/-- R101, R102, R103, in the order of R100 (the spec's decision D15): outside the geometry the result is OutOfRange, whatever
the set; in it, an `active_set` other than 1 and 2 is UnsupportedSet; a zero entry of the selected table is NoMapping, for press
and release alike; otherwise a sequence results. -/
def Obligations.EncoderChecksInOrder : Prop :=
  ∀ (c : Config) (row col : Byte) (pressed : Bool) (set : Byte),
    (7 < row.toNat ∨ 12 < col.toNat → scanEncode c row col pressed set = .error .outOfRange) ∧
    (row.toNat ≤ 7 ∧ col.toNat ≤ 12 → set ≠ 1#8 → set ≠ 2#8 →
      scanEncode c row col pressed set = .error .unsupportedSet) ∧
    ∀ (hr : row.toNat < 8) (hc : col.toNat < 13) (t : MakeTable),
      (set = 1#8 ∧ t = c.set1Table) ∨ (set = 2#8 ∧ t = c.set2Table) →
      ((t[row.toNat]'hr)[col.toNat]'hc = 0#16 → scanEncode c row col pressed set = .error .noMapping) ∧
      ((t[row.toNat]'hr)[col.toNat]'hc ≠ 0#16 → ∃ bytes, scanEncode c row col pressed set = .ok bytes)

/-- R106: a press gives 1 or 2 bytes, a Set 1 release 1 or 2, a Set 2 release 2 or 3, and there is no other set. -/
def Obligations.EncodedLengthsBounded : Prop :=
  ∀ (c : Config) (row col : Byte) (pressed : Bool) (set : Byte) (bytes : List Byte),
    scanEncode c row col pressed set = .ok bytes →
    (pressed = true → bytes.length = 1 ∨ bytes.length = 2) ∧
    (pressed = false → (set = 1#8 ∧ (bytes.length = 1 ∨ bytes.length = 2)) ∨
      (set = 2#8 ∧ (bytes.length = 2 ∨ bytes.length = 3)))

/-- R109: for every mapped key the release differs from the press only by the break transform of the set, and an unmapped
position is NoMapping for both. -/
def Obligations.ReleaseIsBreakTransformOfPress : Prop :=
  ∀ (c : Config) (row col : Byte) (set : Byte),
    (∀ front last, scanEncode c row col true set = .ok (front ++ [last]) →
      scanEncode c row col false set =
        .ok (if set = 1#8 then front ++ [last ||| 0x80#8] else front ++ [0xF0#8, last])) ∧
    (∀ e, scanEncode c row col true set = .error e ↔ scanEncode c row col false set = .error e)

/-! ## Reset and the invariant -/

/-- R30, R260, R261: the state after reset, for every configuration. Mode, set and default delays are the source's; the other
values are the spec's decisions D12, D13, D14, D29 (log 15, 16, 17, 24). -/
def Obligations.ResetState : Prop :=
  State.reset = State.resetWith Config.default ∧
  ∀ c : Config, ∃ first inter, State.resetWith c =
    { config := c, inbox := [], mode := .normal, scancodeSet := 2#8, enabled := c.resetEnabled, cfg := [], cfgAddr := 0#5,
      rateCode := 0x2B#8, firstDelayMs := 500, interDelayMs := 91, firstCounter := first, interCounter := inter,
      resend := [], out := [] } ∧
    ∀ i : CfgIndex, (State.resetWith c).readCfg i = c.cfgReset[i.toNat]

/-- The state after reset meets the invariant in every admitted configuration, and the default configuration is admitted
(R7, R30, R170). -/
def Obligations.ResetMeetsInvariant : Prop :=
  (∀ c : Config, c.wf = true → (State.resetWith c).Inv) ∧ State.reset.Inv

/-- Every step keeps the invariant: the configuration stays admitted, the mode stays one the configuration has, the controller
RAM stays in canonical form, the delays stay those of the stored rate byte, the ResendBuffer and every record stay within their
bounds (R11, R22, R23, R25, R26, R40, R48). -/
def Obligations.StepKeepsInvariant : Prop :=
  ∀ s t : State, s.Inv → step s = .next t → t.Inv

/-- Nothing is fatal (R235): from every state that meets the invariant, any number of steps answers a state that meets it. -/
def Obligations.RunsNeverStop : Prop :=
  ∀ (k : Nat) (s : State), s.Inv → ∃ t : State, Host.Core.run Sys2Proof.core k s = .next t ∧ t.Inv

/-- The only stop of any state: a `DATA` byte that finds the seventh mode in a configuration without it (R11, R146; log 11). -/
def Obligations.StepRefusesOnlyAbsentMode : Prop :=
  ∀ (s : State) (r : Refusal), step s = .refused r ↔
    r = .modeNotInConfiguration ∧ s.mode = .awaitingTypematicValue ∧ s.config.typematicOperand = .commandByte ∧
      ∃ b rest, s.inbox = .data b :: rest

/-! ## Who writes what -/

/-- R12: how each transaction advances `mode` (its `CMD` arm without a mode is the spec's decision D17, log 20). -/
def Obligations.ModeTransitions : Prop :=
  ∀ (s t : State) (a : Arrival) (rest : List Arrival), s.config.wf = true → s.inbox = a :: rest → step s = .next t →
    (∀ b, a = .data b → s.mode ≠ .normal → t.mode = .normal) ∧
    (∀ b, a = .data b → s.mode = .normal → t.mode =
      if b = 0xF0#8 then .awaitingScancodeSetValue
      else if b = 0xED#8 then .awaitingLedValue
      else if b = 0xF3#8 ∧ s.config.typematicOperand = .nextDataByte then .awaitingTypematicValue
      else .normal) ∧
    (∀ b, a = .cmd b → t.mode =
      if b = s.config.cmdWriteCfg ∨ windowHolds s.config.cfgWriteBase b = true then .awaitingConfigByteValue
      else if b = s.config.cmdAuxEcho then .echoToCaller
      else if b = s.config.cmdAuxSend then .forwardToSecondaryDevice
      else s.mode) ∧
    (∀ row col pressed, a = .key row col pressed → t.mode = s.mode) ∧
    (∀ args, a = .con args → t.mode = s.mode)

/-- R14: the writers of `scancode_set` are the set operand and an accepted console override, and no other transaction. -/
def Obligations.ScancodeSetWriters : Prop :=
  ∀ (s t : State) (a : Arrival) (rest : List Arrival), s.inbox = a :: rest → step s = .next t →
    (∀ b, a = .data b → s.mode = .awaitingScancodeSetValue → b ≠ s.config.scansetGet → t.scancodeSet = b) ∧
    (a = .con [.int 1] → t.scancodeSet = 1#8) ∧
    (a = .con [.int 2] → t.scancodeSet = 2#8) ∧
    (t.scancodeSet ≠ s.scancodeSet →
      (∃ b, a = .data b ∧ s.mode = .awaitingScancodeSetValue ∧ b ≠ s.config.scansetGet) ∨
      a = .con [.int 1] ∨ a = .con [.int 2])

/-- R15, R16: what `enabled` is after each item: true after 0xF4, false after 0xF5, 0xFF and an unsupported byte in `Normal`
mode and after an unrecognised `CMD` byte, unchanged otherwise. -/
def Obligations.EnabledWriters : Prop :=
  ∀ (s t : State) (a : Arrival) (rest : List Arrival), s.inbox = a :: rest → step s = .next t →
    (∀ b, a = .data b → t.enabled =
      if s.mode = .normal ∧ b = 0xF4#8 then true
      else if s.mode = .normal ∧ (b = 0xF5#8 ∨ b = 0xFF#8 ∨ b ∉ normalCodes) then false
      else s.enabled) ∧
    (∀ b, a = .cmd b → t.enabled = if WellFormed s.config (.cUnrec b) = true then false else s.enabled) ∧
    (∀ row col pressed, a = .key row col pressed → t.enabled = s.enabled) ∧
    (∀ args, a = .con args → t.enabled = s.enabled)

/-- R203, R204: the typematic registers change only by a rate command or operand, to what `set_rate` gives, and by the four
resetting transactions, to the defaults. -/
def Obligations.TypematicWriters : Prop :=
  ∀ (s t : State) (a : Arrival) (rest : List Arrival), s.inbox = a :: rest → step s = .next t →
    (t.rateCode, t.firstDelayMs, t.interDelayMs) = (s.rateCode, s.firstDelayMs, s.interDelayMs) ∨
    ((t.rateCode, t.firstDelayMs, t.interDelayMs) = (0xF3#8, 1000, 183) ∧
      a = .data 0xF3#8 ∧ s.mode = .normal ∧ s.config.typematicOperand = .commandByte) ∨
    (∃ b, (t.rateCode, t.firstDelayMs, t.interDelayMs) = (b, rateFirstDelay b, rateInterDelay b) ∧
      a = .data b ∧ s.mode = .awaitingTypematicValue ∧ s.config.typematicOperand = .nextDataByte) ∨
    ((t.rateCode, t.firstDelayMs, t.interDelayMs) = (0x2B#8, 500, 91) ∧
      ((∃ b, a = .data b ∧ s.mode = .normal ∧ (b = 0xF5#8 ∨ b = 0xF6#8 ∨ b ∉ normalCodes)) ∨
        ∃ b, a = .cmd b ∧ WellFormed s.config (.cUnrec b) = true))

/-- R10, R17, R47: a byte of the controller RAM changes only by the value operand, at the latched address, and by the four flag
commands, at index 0; every other byte reads as before. -/
def Obligations.ControllerRamWriters : Prop :=
  ∀ (s t : State) (a : Arrival) (rest : List Arrival) (k : CfgIndex), s.inbox = a :: rest → step s = .next t →
    (∀ b, a = .data b → s.mode = .awaitingConfigByteValue → t.readCfg s.cfgAddr = b) ∧
    (t.readCfg k ≠ s.readCfg k →
      (∃ b, a = .data b ∧ s.mode = .awaitingConfigByteValue ∧ k = s.cfgAddr) ∨
      (k = 0#5 ∧ ∃ b, a = .cmd b ∧
        b ∈ [s.config.cmdKbdDis, s.config.cmdKbdEn, s.config.cmdAuxDis, s.config.cmdAuxEn]))

/-- R20: `cfg_addr` is written by the two write commands alone. -/
def Obligations.LatchedAddressWriters : Prop :=
  ∀ (s t : State) (a : Arrival) (rest : List Arrival), s.config.wf = true → s.inbox = a :: rest → step s = .next t →
    t.cfgAddr ≠ s.cfgAddr →
    ∃ b, a = .cmd b ∧
      ((b = s.config.cmdWriteCfg ∧ t.cfgAddr = 0#5) ∨
        (windowHolds s.config.cfgWriteBase b = true ∧ t.cfgAddr.toNat = b.toNat - s.config.cfgWriteBase.toNat))

/-- R24, R27, R263: no step changes the configuration (the two make-code tables among it) or the two counters. -/
def Obligations.ConfigurationAndCountersConstant : Prop :=
  ∀ s t : State, step s = .next t →
    t.config = s.config ∧ t.firstCounter = s.firstCounter ∧ t.interCounter = s.interCounter

/-! ## The output ports -/

/-- R48, R49, R219: a transaction appends to the output at most one `TX` record, non-empty and tagged with its own port, with the
`FLUSH` pulse, if any, before it (the order is the spec's decision D2, log 19); a console transaction appends only console
events. Nothing emitted before is altered. -/
def Obligations.OneRecordPerTransaction : Prop :=
  ∀ (s t : State) (a : Arrival) (rest : List Arrival), s.inbox = a :: rest → step s = .next t →
    ∃ evs, t.out = s.out ++ evs ∧
      (evs = [] ∨
        (∃ bytes, bytes ≠ [] ∧ a.port ≠ .con ∧ (evs = [.tx a.port bytes] ∨ evs = [.flush, .tx a.port bytes])) ∨
        (a.port = .con ∧ (evs = [.conRejected] ∨ ∃ v, evs = [.conValue v])))

/-- R52: the transactions that raise `FLUSH` are `D.ENABLE`, `D.DISABLE`, `D.SETDEFAULT`, `D.UNSUP` and `C.UNREC`, and no
other. -/
def Obligations.FlushRaisedExactlyBy : Prop :=
  ∀ (i : Instr) (s t : State) (evs : List Output), exec i s = .next t → t.out = s.out ++ evs →
    (.flush ∈ evs ↔
      i = .dEnable ∨ i = .dDisable ∨ i = .dSetdefault ∨ (∃ b, i = .dUnsup b) ∨ ∃ b, i = .cUnrec b)

/-- R49, R269: after a flushing transaction a transport that sent nothing holds exactly that transaction's one-byte response,
and nothing of any earlier record (order: the spec's decision D2, log 19). That responses and scan codes share one unbounded
queue is the model's choice (log 34). -/
def Obligations.FlushLeavesOnlyItsResponse : Prop :=
  ∀ (i : Instr) (s t : State), flushing i = true → exec i s = .next t →
    transportQueue t.out = [0xFA#8] ∨ transportQueue t.out = [0xFE#8]

/-! ## Independence -/

/-- R11, R170: a `CMD` byte is processed the same in every mode: from two states that differ in `mode` only, one step gives
states that differ in `mode` only. -/
def Obligations.CommandsIgnoreMode : Prop :=
  ∀ (s t : State) (m : Mode) (b : Byte) (rest : List Arrival), s.inbox = .cmd b :: rest → step s = .next t →
    ∃ u, step { s with mode := m } = .next u ∧ u = { t with mode := u.mode }

/-- R215, R218 (no gating: the spec's decision D12, log 15): a key transition writes no register, and what it emits depends on
nothing but the item, the configuration and `scancode_set`: not on `enabled`, `mode`, `cfg[0]` or anything else. -/
def Obligations.KeyEventsReadOnlyTheSet : Prop :=
  ∀ (s u : State) (row col : Byte) (pressed : Bool) (rest rest' : List Arrival),
    s.config = u.config → s.scancodeSet = u.scancodeSet →
    s.inbox = .key row col pressed :: rest → u.inbox = .key row col pressed :: rest' →
    ∃ evs, step s = .next { s with inbox := rest, out := s.out ++ evs } ∧
      step u = .next { u with inbox := rest', out := u.out ++ evs }

/-! ## Sequences -/

/-- R151: after a `Normal`-mode `DATA` byte other than 0xFE that emits the record `R`, and any run of transactions that do not
capture, the resend command emits `[ACK] ++ R` (under the default `RESEND_CAPTURE`; the leading ACK is the spec's decision
D8). -/
def Obligations.ResendFidelity : Prop :=
  ∀ (s t u : State) (b : Byte) (rest rest' : List Arrival) (evs : List Output) (R : List Byte),
    s.config.resendCapture = .normalModeOnly → s.mode = .normal → s.inbox = .data b :: rest → b ≠ 0xFE#8 →
    step s = .next t → t.out = s.out ++ evs → .tx .data R ∈ evs →
    QuietRun t u → u.mode = .normal → u.inbox = .data 0xFE#8 :: rest' →
    step u = .next { u with inbox := rest', out := u.out ++ [.tx .data (0xFA#8 :: R)] }

/-- R41, R172, R180, R143, R171, R179: an indexed write, its operand and an indexed read of the same index, in one sequence,
answer ACK and then the byte written, at every index and in every admitted configuration. -/
def Obligations.ConfigWriteThenReadBack : Prop :=
  ∀ (s : State) (i : CfgIndex) (v : Byte) (rest : List Arrival), s.config.wf = true →
    s.inbox = .cmd (s.config.cfgWriteBase + i.setWidth 8) :: .data v :: .cmd (s.config.cfgReadBase + i.setWidth 8) :: rest →
    ∃ t : State, Host.Core.run Sys2Proof.core 3 s = .next t ∧ t.inbox = rest ∧ t.mode = .normal ∧ t.readCfg i = v ∧
      t.out = s.out ++ [.tx .data [0xFA#8], .tx .cmd [v]]
end

