-- ==== Sys2Proof/Laws/Decode.lean ====
section
/-!
SUPPORT. The decoders, inverted: which byte a decoded transaction comes from, and what an admitted configuration says of a single
command code that lies in a window.
-/

namespace Sys2Proof.Laws

theorem decode_normal_data {c : Config} {b : Byte} {i : Instr} (h : decode c .normal (.data b) = .ok i) :
    i = decodeNormal b := by
  injection h with h
  exact h.symm

theorem decode_cmd {c : Config} {m : Mode} {b : Byte} {i : Instr} (h : decode c m (.cmd b) = .ok i) :
    i = decodeCmd c b := by
  injection h with h
  exact h.symm

/-- A byte of `Normal` mode is one of the eleven listed codes with its transaction, or unsupported (R63). -/
theorem decodeNormal_cases (b : Byte) :
    (b, decodeNormal b) ∈ [(0xF0#8, Instr.dScanset), (0xED#8, .dSetleds), (0xF2#8, .dIdentify), (0xF3#8, .dSetrate),
        (0xF4#8, .dEnable), (0xF5#8, .dDisable), (0xF6#8, .dSetdefault), (0xFF#8, .dReset), (0xFE#8, .dResend),
        (0x60#8, .dQuirk60), (0x45#8, .dQuirk45)] ∨
      (decodeNormal b = .dUnsup b ∧ b ∉ normalCodes) := by
  by_cases hn : b ∈ normalCodes
  · refine .inl ?_
    simp only [normalCodes, List.mem_cons, List.not_mem_nil, or_false] at hn
    rcases hn with rfl | rfl | rfl | rfl | rfl | rfl | rfl | rfl | rfl | rfl | rfl <;> decide
  · refine .inr ⟨?_, hn⟩
    simp only [normalCodes, List.mem_cons, List.not_mem_nil, or_false, not_or] at hn
    simp [decodeNormal, hn]

/-- A single code of an admitted configuration lies in a window only as the index 0 command of that window (R170). -/
theorem singleCode_in_window {c : Config} (h : c.wf = true) {b : Byte} (hb : b ∈ c.singleCodes) :
    (windowHolds c.cfgReadBase b = true → b = c.cmdReadCfg ∧ b = c.cfgReadBase) ∧
      (windowHolds c.cfgWriteBase b = true → b = c.cmdWriteCfg ∧ b = c.cfgWriteBase) := by
  have h2 : c.codesOutsideWindows = true := by
    simp only [Config.wf, Bool.and_eq_true] at h
    exact h.1.1.2
  simp only [Config.codesOutsideWindows, List.all_eq_true, Bool.and_eq_true, Bool.or_eq_true, Bool.not_eq_true',
    beq_iff_eq] at h2
  obtain ⟨hr, hw⟩ := h2 b hb
  exact ⟨fun hin => hr.resolve_left (by simp [hin]), fun hin => hw.resolve_left (by simp [hin])⟩

end Sys2Proof.Laws
end

