-- ==== Sys2Proof/Laws/Encoder.lean ====
section
/-!
SUPPORT. The Scan Code Encoder: one lemma per outcome, and the lengths of what it emits.
-/

namespace Sys2Proof.Machine

theorem scanEncode_outOfRange {row col : Byte} (h : ¬(row.toNat ≤ 7 ∧ col.toNat ≤ 12)) (c : Config) (pressed : Bool)
    (set : Byte) : scanEncode c row col pressed set = .error .outOfRange := by
  simp only [scanEncode, dif_neg h]

theorem scanEncode_unsupportedSet {c : Config} {row col set : Byte} (h : row.toNat ≤ 7 ∧ col.toNat ≤ 12)
    (hs : scanTable c set = none) (pressed : Bool) :
    scanEncode c row col pressed set = .error .unsupportedSet := by
  simp only [scanEncode, dif_pos h, hs]

/-- In range, in a supported set: no mapping when the entry is 0, else the make bytes or their break transform. -/
theorem scanEncode_inRange {c : Config} {row col set : Byte} {t : MakeTable} (hr : row.toNat < 8) (hc : col.toNat < 13)
    (hs : scanTable c set = some t) (pressed : Bool) :
    scanEncode c row col pressed set =
      if romRead t ⟨row.toNat, hr⟩ ⟨col.toNat, hc⟩ = 0#16 then .error .noMapping
      else .ok (if pressed then makeBytes (romRead t ⟨row.toNat, hr⟩ ⟨col.toNat, hc⟩)
        else breakBytes set (makeBytes (romRead t ⟨row.toNat, hr⟩ ⟨col.toNat, hc⟩))) := by
  have h : row.toNat ≤ 7 ∧ col.toNat ≤ 12 := ⟨by omega, by omega⟩
  simp only [scanEncode, dif_pos h, hs]

theorem makeBytes_ne_nil (m : MakeCode) : makeBytes m ≠ [] := by
  unfold makeBytes
  split_ifs <;> simp

theorem makeBytes_length_le (m : MakeCode) : (makeBytes m).length ≤ 2 := by
  unfold makeBytes
  split_ifs <;> simp

theorem breakBytes_ne_nil (set : Byte) (bytes : List Byte) : breakBytes set bytes ≠ [] := by
  unfold breakBytes
  split_ifs <;> simp

theorem breakBytes_length_le (set : Byte) {bytes : List Byte} (h : bytes ≠ []) :
    (breakBytes set bytes).length ≤ bytes.length + 1 := by
  have hl : 0 < bytes.length := List.length_pos_iff.mpr h
  unfold breakBytes
  split_ifs <;> simp only [List.length_append, List.length_dropLast, List.length_cons, List.length_nil] <;> omega

@[simp] theorem keyBytes_ok (bytes : List Byte) : keyBytes (.ok bytes) = bytes := rfl

@[simp] theorem keyBytes_error (e : EncodeError) : keyBytes (.error e) = [] := rfl

end Sys2Proof.Machine
end

