-- ==== Sys2Proof/Laws/State.lean ====
section
/-!
SUPPORT. One lemma per field per register update: what the update gives the field, and that every other field keeps its value.
-/

namespace Sys2Proof.Machine

/-! ## `State.setMode` -/

@[simp] theorem State.setMode_config (m : Mode) (s : State) : (s.setMode m).config = s.config := rfl
@[simp] theorem State.setMode_inbox (m : Mode) (s : State) : (s.setMode m).inbox = s.inbox := rfl
@[simp] theorem State.setMode_mode (m : Mode) (s : State) : (s.setMode m).mode = m := rfl
@[simp] theorem State.setMode_scancodeSet (m : Mode) (s : State) : (s.setMode m).scancodeSet = s.scancodeSet := rfl
@[simp] theorem State.setMode_enabled (m : Mode) (s : State) : (s.setMode m).enabled = s.enabled := rfl
@[simp] theorem State.setMode_cfg (m : Mode) (s : State) : (s.setMode m).cfg = s.cfg := rfl
@[simp] theorem State.setMode_cfgAddr (m : Mode) (s : State) : (s.setMode m).cfgAddr = s.cfgAddr := rfl
@[simp] theorem State.setMode_rateCode (m : Mode) (s : State) : (s.setMode m).rateCode = s.rateCode := rfl
@[simp] theorem State.setMode_firstDelayMs (m : Mode) (s : State) : (s.setMode m).firstDelayMs = s.firstDelayMs := rfl
@[simp] theorem State.setMode_interDelayMs (m : Mode) (s : State) : (s.setMode m).interDelayMs = s.interDelayMs := rfl
@[simp] theorem State.setMode_firstCounter (m : Mode) (s : State) : (s.setMode m).firstCounter = s.firstCounter := rfl
@[simp] theorem State.setMode_interCounter (m : Mode) (s : State) : (s.setMode m).interCounter = s.interCounter := rfl
@[simp] theorem State.setMode_resend (m : Mode) (s : State) : (s.setMode m).resend = s.resend := rfl
@[simp] theorem State.setMode_out (m : Mode) (s : State) : (s.setMode m).out = s.out := rfl
@[simp] theorem State.setMode_readCfg (m : Mode) (s : State) (k : CfgIndex) :
    (s.setMode m).readCfg k = s.readCfg k := rfl

/-! ## `State.setScancodeSet` -/

@[simp] theorem State.setScancodeSet_config (b : Byte) (s : State) : (s.setScancodeSet b).config = s.config := rfl
@[simp] theorem State.setScancodeSet_inbox (b : Byte) (s : State) : (s.setScancodeSet b).inbox = s.inbox := rfl
@[simp] theorem State.setScancodeSet_mode (b : Byte) (s : State) : (s.setScancodeSet b).mode = s.mode := rfl
@[simp] theorem State.setScancodeSet_scancodeSet (b : Byte) (s : State) : (s.setScancodeSet b).scancodeSet = b := rfl
@[simp] theorem State.setScancodeSet_enabled (b : Byte) (s : State) : (s.setScancodeSet b).enabled = s.enabled := rfl
@[simp] theorem State.setScancodeSet_cfg (b : Byte) (s : State) : (s.setScancodeSet b).cfg = s.cfg := rfl
@[simp] theorem State.setScancodeSet_cfgAddr (b : Byte) (s : State) : (s.setScancodeSet b).cfgAddr = s.cfgAddr := rfl
@[simp] theorem State.setScancodeSet_rateCode (b : Byte) (s : State) : (s.setScancodeSet b).rateCode = s.rateCode := rfl
@[simp] theorem State.setScancodeSet_firstDelayMs (b : Byte) (s : State) : (s.setScancodeSet b).firstDelayMs = s.firstDelayMs := rfl
@[simp] theorem State.setScancodeSet_interDelayMs (b : Byte) (s : State) : (s.setScancodeSet b).interDelayMs = s.interDelayMs := rfl
@[simp] theorem State.setScancodeSet_firstCounter (b : Byte) (s : State) : (s.setScancodeSet b).firstCounter = s.firstCounter := rfl
@[simp] theorem State.setScancodeSet_interCounter (b : Byte) (s : State) : (s.setScancodeSet b).interCounter = s.interCounter := rfl
@[simp] theorem State.setScancodeSet_resend (b : Byte) (s : State) : (s.setScancodeSet b).resend = s.resend := rfl
@[simp] theorem State.setScancodeSet_out (b : Byte) (s : State) : (s.setScancodeSet b).out = s.out := rfl
@[simp] theorem State.setScancodeSet_readCfg (b : Byte) (s : State) (k : CfgIndex) :
    (s.setScancodeSet b).readCfg k = s.readCfg k := rfl

/-! ## `State.setEnabled` -/

@[simp] theorem State.setEnabled_config (e : Bool) (s : State) : (s.setEnabled e).config = s.config := rfl
@[simp] theorem State.setEnabled_inbox (e : Bool) (s : State) : (s.setEnabled e).inbox = s.inbox := rfl
@[simp] theorem State.setEnabled_mode (e : Bool) (s : State) : (s.setEnabled e).mode = s.mode := rfl
@[simp] theorem State.setEnabled_scancodeSet (e : Bool) (s : State) : (s.setEnabled e).scancodeSet = s.scancodeSet := rfl
@[simp] theorem State.setEnabled_enabled (e : Bool) (s : State) : (s.setEnabled e).enabled = e := rfl
@[simp] theorem State.setEnabled_cfg (e : Bool) (s : State) : (s.setEnabled e).cfg = s.cfg := rfl
@[simp] theorem State.setEnabled_cfgAddr (e : Bool) (s : State) : (s.setEnabled e).cfgAddr = s.cfgAddr := rfl
@[simp] theorem State.setEnabled_rateCode (e : Bool) (s : State) : (s.setEnabled e).rateCode = s.rateCode := rfl
@[simp] theorem State.setEnabled_firstDelayMs (e : Bool) (s : State) : (s.setEnabled e).firstDelayMs = s.firstDelayMs := rfl
@[simp] theorem State.setEnabled_interDelayMs (e : Bool) (s : State) : (s.setEnabled e).interDelayMs = s.interDelayMs := rfl
@[simp] theorem State.setEnabled_firstCounter (e : Bool) (s : State) : (s.setEnabled e).firstCounter = s.firstCounter := rfl
@[simp] theorem State.setEnabled_interCounter (e : Bool) (s : State) : (s.setEnabled e).interCounter = s.interCounter := rfl
@[simp] theorem State.setEnabled_resend (e : Bool) (s : State) : (s.setEnabled e).resend = s.resend := rfl
@[simp] theorem State.setEnabled_out (e : Bool) (s : State) : (s.setEnabled e).out = s.out := rfl
@[simp] theorem State.setEnabled_readCfg (e : Bool) (s : State) (k : CfgIndex) :
    (s.setEnabled e).readCfg k = s.readCfg k := rfl

/-! ## `State.setCfgAddr` -/

@[simp] theorem State.setCfgAddr_config (i : CfgIndex) (s : State) : (s.setCfgAddr i).config = s.config := rfl
@[simp] theorem State.setCfgAddr_inbox (i : CfgIndex) (s : State) : (s.setCfgAddr i).inbox = s.inbox := rfl
@[simp] theorem State.setCfgAddr_mode (i : CfgIndex) (s : State) : (s.setCfgAddr i).mode = s.mode := rfl
@[simp] theorem State.setCfgAddr_scancodeSet (i : CfgIndex) (s : State) : (s.setCfgAddr i).scancodeSet = s.scancodeSet := rfl
@[simp] theorem State.setCfgAddr_enabled (i : CfgIndex) (s : State) : (s.setCfgAddr i).enabled = s.enabled := rfl
@[simp] theorem State.setCfgAddr_cfg (i : CfgIndex) (s : State) : (s.setCfgAddr i).cfg = s.cfg := rfl
@[simp] theorem State.setCfgAddr_cfgAddr (i : CfgIndex) (s : State) : (s.setCfgAddr i).cfgAddr = i := rfl
@[simp] theorem State.setCfgAddr_rateCode (i : CfgIndex) (s : State) : (s.setCfgAddr i).rateCode = s.rateCode := rfl
@[simp] theorem State.setCfgAddr_firstDelayMs (i : CfgIndex) (s : State) : (s.setCfgAddr i).firstDelayMs = s.firstDelayMs := rfl
@[simp] theorem State.setCfgAddr_interDelayMs (i : CfgIndex) (s : State) : (s.setCfgAddr i).interDelayMs = s.interDelayMs := rfl
@[simp] theorem State.setCfgAddr_firstCounter (i : CfgIndex) (s : State) : (s.setCfgAddr i).firstCounter = s.firstCounter := rfl
@[simp] theorem State.setCfgAddr_interCounter (i : CfgIndex) (s : State) : (s.setCfgAddr i).interCounter = s.interCounter := rfl
@[simp] theorem State.setCfgAddr_resend (i : CfgIndex) (s : State) : (s.setCfgAddr i).resend = s.resend := rfl
@[simp] theorem State.setCfgAddr_out (i : CfgIndex) (s : State) : (s.setCfgAddr i).out = s.out := rfl
@[simp] theorem State.setCfgAddr_readCfg (i : CfgIndex) (s : State) (k : CfgIndex) :
    (s.setCfgAddr i).readCfg k = s.readCfg k := rfl

/-! ## `State.setTypematic` -/

@[simp] theorem State.setTypematic_config (code : Byte) (first inter : Nat) (s : State) : (s.setTypematic code first inter).config = s.config := rfl
@[simp] theorem State.setTypematic_inbox (code : Byte) (first inter : Nat) (s : State) : (s.setTypematic code first inter).inbox = s.inbox := rfl
@[simp] theorem State.setTypematic_mode (code : Byte) (first inter : Nat) (s : State) : (s.setTypematic code first inter).mode = s.mode := rfl
@[simp] theorem State.setTypematic_scancodeSet (code : Byte) (first inter : Nat) (s : State) : (s.setTypematic code first inter).scancodeSet = s.scancodeSet := rfl
@[simp] theorem State.setTypematic_enabled (code : Byte) (first inter : Nat) (s : State) : (s.setTypematic code first inter).enabled = s.enabled := rfl
@[simp] theorem State.setTypematic_cfg (code : Byte) (first inter : Nat) (s : State) : (s.setTypematic code first inter).cfg = s.cfg := rfl
@[simp] theorem State.setTypematic_cfgAddr (code : Byte) (first inter : Nat) (s : State) : (s.setTypematic code first inter).cfgAddr = s.cfgAddr := rfl
@[simp] theorem State.setTypematic_rateCode (code : Byte) (first inter : Nat) (s : State) : (s.setTypematic code first inter).rateCode = code := rfl
@[simp] theorem State.setTypematic_firstDelayMs (code : Byte) (first inter : Nat) (s : State) : (s.setTypematic code first inter).firstDelayMs = first := rfl
@[simp] theorem State.setTypematic_interDelayMs (code : Byte) (first inter : Nat) (s : State) : (s.setTypematic code first inter).interDelayMs = inter := rfl
@[simp] theorem State.setTypematic_firstCounter (code : Byte) (first inter : Nat) (s : State) : (s.setTypematic code first inter).firstCounter = s.firstCounter := rfl
@[simp] theorem State.setTypematic_interCounter (code : Byte) (first inter : Nat) (s : State) : (s.setTypematic code first inter).interCounter = s.interCounter := rfl
@[simp] theorem State.setTypematic_resend (code : Byte) (first inter : Nat) (s : State) : (s.setTypematic code first inter).resend = s.resend := rfl
@[simp] theorem State.setTypematic_out (code : Byte) (first inter : Nat) (s : State) : (s.setTypematic code first inter).out = s.out := rfl
@[simp] theorem State.setTypematic_readCfg (code : Byte) (first inter : Nat) (s : State) (k : CfgIndex) :
    (s.setTypematic code first inter).readCfg k = s.readCfg k := rfl

/-! ## `State.setInbox` -/

@[simp] theorem State.setInbox_config (items : List Arrival) (s : State) : (s.setInbox items).config = s.config := rfl
@[simp] theorem State.setInbox_inbox (items : List Arrival) (s : State) : (s.setInbox items).inbox = items := rfl
@[simp] theorem State.setInbox_mode (items : List Arrival) (s : State) : (s.setInbox items).mode = s.mode := rfl
@[simp] theorem State.setInbox_scancodeSet (items : List Arrival) (s : State) : (s.setInbox items).scancodeSet = s.scancodeSet := rfl
@[simp] theorem State.setInbox_enabled (items : List Arrival) (s : State) : (s.setInbox items).enabled = s.enabled := rfl
@[simp] theorem State.setInbox_cfg (items : List Arrival) (s : State) : (s.setInbox items).cfg = s.cfg := rfl
@[simp] theorem State.setInbox_cfgAddr (items : List Arrival) (s : State) : (s.setInbox items).cfgAddr = s.cfgAddr := rfl
@[simp] theorem State.setInbox_rateCode (items : List Arrival) (s : State) : (s.setInbox items).rateCode = s.rateCode := rfl
@[simp] theorem State.setInbox_firstDelayMs (items : List Arrival) (s : State) : (s.setInbox items).firstDelayMs = s.firstDelayMs := rfl
@[simp] theorem State.setInbox_interDelayMs (items : List Arrival) (s : State) : (s.setInbox items).interDelayMs = s.interDelayMs := rfl
@[simp] theorem State.setInbox_firstCounter (items : List Arrival) (s : State) : (s.setInbox items).firstCounter = s.firstCounter := rfl
@[simp] theorem State.setInbox_interCounter (items : List Arrival) (s : State) : (s.setInbox items).interCounter = s.interCounter := rfl
@[simp] theorem State.setInbox_resend (items : List Arrival) (s : State) : (s.setInbox items).resend = s.resend := rfl
@[simp] theorem State.setInbox_out (items : List Arrival) (s : State) : (s.setInbox items).out = s.out := rfl
@[simp] theorem State.setInbox_readCfg (items : List Arrival) (s : State) (k : CfgIndex) :
    (s.setInbox items).readCfg k = s.readCfg k := rfl

/-! ## `State.writeCfg` -/

@[simp] theorem State.writeCfg_config (i : CfgIndex) (b : Byte) (s : State) : (s.writeCfg i b).config = s.config := rfl
@[simp] theorem State.writeCfg_inbox (i : CfgIndex) (b : Byte) (s : State) : (s.writeCfg i b).inbox = s.inbox := rfl
@[simp] theorem State.writeCfg_mode (i : CfgIndex) (b : Byte) (s : State) : (s.writeCfg i b).mode = s.mode := rfl
@[simp] theorem State.writeCfg_scancodeSet (i : CfgIndex) (b : Byte) (s : State) : (s.writeCfg i b).scancodeSet = s.scancodeSet := rfl
@[simp] theorem State.writeCfg_enabled (i : CfgIndex) (b : Byte) (s : State) : (s.writeCfg i b).enabled = s.enabled := rfl
@[simp] theorem State.writeCfg_cfg (i : CfgIndex) (b : Byte) (s : State) : (s.writeCfg i b).cfg = memWrite s.config s.cfg i.toNat b := rfl
@[simp] theorem State.writeCfg_cfgAddr (i : CfgIndex) (b : Byte) (s : State) : (s.writeCfg i b).cfgAddr = s.cfgAddr := rfl
@[simp] theorem State.writeCfg_rateCode (i : CfgIndex) (b : Byte) (s : State) : (s.writeCfg i b).rateCode = s.rateCode := rfl
@[simp] theorem State.writeCfg_firstDelayMs (i : CfgIndex) (b : Byte) (s : State) : (s.writeCfg i b).firstDelayMs = s.firstDelayMs := rfl
@[simp] theorem State.writeCfg_interDelayMs (i : CfgIndex) (b : Byte) (s : State) : (s.writeCfg i b).interDelayMs = s.interDelayMs := rfl
@[simp] theorem State.writeCfg_firstCounter (i : CfgIndex) (b : Byte) (s : State) : (s.writeCfg i b).firstCounter = s.firstCounter := rfl
@[simp] theorem State.writeCfg_interCounter (i : CfgIndex) (b : Byte) (s : State) : (s.writeCfg i b).interCounter = s.interCounter := rfl
@[simp] theorem State.writeCfg_resend (i : CfgIndex) (b : Byte) (s : State) : (s.writeCfg i b).resend = s.resend := rfl
@[simp] theorem State.writeCfg_out (i : CfgIndex) (b : Byte) (s : State) : (s.writeCfg i b).out = s.out := rfl

/-! ## `State.emit` -/

@[simp] theorem State.emit_config (evs : List Output) (s : State) : (s.emit evs).config = s.config := rfl
@[simp] theorem State.emit_inbox (evs : List Output) (s : State) : (s.emit evs).inbox = s.inbox := rfl
@[simp] theorem State.emit_mode (evs : List Output) (s : State) : (s.emit evs).mode = s.mode := rfl
@[simp] theorem State.emit_scancodeSet (evs : List Output) (s : State) : (s.emit evs).scancodeSet = s.scancodeSet := rfl
@[simp] theorem State.emit_enabled (evs : List Output) (s : State) : (s.emit evs).enabled = s.enabled := rfl
@[simp] theorem State.emit_cfg (evs : List Output) (s : State) : (s.emit evs).cfg = s.cfg := rfl
@[simp] theorem State.emit_cfgAddr (evs : List Output) (s : State) : (s.emit evs).cfgAddr = s.cfgAddr := rfl
@[simp] theorem State.emit_rateCode (evs : List Output) (s : State) : (s.emit evs).rateCode = s.rateCode := rfl
@[simp] theorem State.emit_firstDelayMs (evs : List Output) (s : State) : (s.emit evs).firstDelayMs = s.firstDelayMs := rfl
@[simp] theorem State.emit_interDelayMs (evs : List Output) (s : State) : (s.emit evs).interDelayMs = s.interDelayMs := rfl
@[simp] theorem State.emit_firstCounter (evs : List Output) (s : State) : (s.emit evs).firstCounter = s.firstCounter := rfl
@[simp] theorem State.emit_interCounter (evs : List Output) (s : State) : (s.emit evs).interCounter = s.interCounter := rfl
@[simp] theorem State.emit_resend (evs : List Output) (s : State) : (s.emit evs).resend = s.resend := rfl
@[simp] theorem State.emit_out (evs : List Output) (s : State) : (s.emit evs).out = s.out ++ evs := rfl
@[simp] theorem State.emit_readCfg (evs : List Output) (s : State) (k : CfgIndex) :
    (s.emit evs).readCfg k = s.readCfg k := rfl

/-! ## `State.captureIf` -/

@[simp] theorem State.captureIf_config (on : Bool) (resp : List Byte) (s : State) : (s.captureIf on resp).config = s.config := rfl
@[simp] theorem State.captureIf_inbox (on : Bool) (resp : List Byte) (s : State) : (s.captureIf on resp).inbox = s.inbox := rfl
@[simp] theorem State.captureIf_mode (on : Bool) (resp : List Byte) (s : State) : (s.captureIf on resp).mode = s.mode := rfl
@[simp] theorem State.captureIf_scancodeSet (on : Bool) (resp : List Byte) (s : State) : (s.captureIf on resp).scancodeSet = s.scancodeSet := rfl
@[simp] theorem State.captureIf_enabled (on : Bool) (resp : List Byte) (s : State) : (s.captureIf on resp).enabled = s.enabled := rfl
@[simp] theorem State.captureIf_cfg (on : Bool) (resp : List Byte) (s : State) : (s.captureIf on resp).cfg = s.cfg := rfl
@[simp] theorem State.captureIf_cfgAddr (on : Bool) (resp : List Byte) (s : State) : (s.captureIf on resp).cfgAddr = s.cfgAddr := rfl
@[simp] theorem State.captureIf_rateCode (on : Bool) (resp : List Byte) (s : State) : (s.captureIf on resp).rateCode = s.rateCode := rfl
@[simp] theorem State.captureIf_firstDelayMs (on : Bool) (resp : List Byte) (s : State) : (s.captureIf on resp).firstDelayMs = s.firstDelayMs := rfl
@[simp] theorem State.captureIf_interDelayMs (on : Bool) (resp : List Byte) (s : State) : (s.captureIf on resp).interDelayMs = s.interDelayMs := rfl
@[simp] theorem State.captureIf_firstCounter (on : Bool) (resp : List Byte) (s : State) : (s.captureIf on resp).firstCounter = s.firstCounter := rfl
@[simp] theorem State.captureIf_interCounter (on : Bool) (resp : List Byte) (s : State) : (s.captureIf on resp).interCounter = s.interCounter := rfl
@[simp] theorem State.captureIf_resend (on : Bool) (resp : List Byte) (s : State) : (s.captureIf on resp).resend = if on && !resp.isEmpty then resp else s.resend := rfl
@[simp] theorem State.captureIf_out (on : Bool) (resp : List Byte) (s : State) : (s.captureIf on resp).out = s.out := rfl
@[simp] theorem State.captureIf_readCfg (on : Bool) (resp : List Byte) (s : State) (k : CfgIndex) :
    (s.captureIf on resp).readCfg k = s.readCfg k := rfl

end Sys2Proof.Machine
end

