-- ==== Sys2Proof/Laws/Memory.lean ====
section
/-!
SUPPORT. The controller RAM: a read after a write, and the canonical form, which every memory operation keeps.
-/

namespace Sys2Proof.Machine

theorem cellLookup_cellInsert_same (a : Nat) (b : Byte) (m : List Host.Cell) :
    cellLookup (cellInsert a b m) a = some b := by
  induction m with
  | nil => simp [cellInsert, cellLookup]
  | cons x rest ih =>
    obtain ⟨k, v⟩ := x
    unfold cellInsert
    split_ifs with h₁ h₂
    · simp [cellLookup]
    · simp [cellLookup]
    · simp [cellLookup, ih, Ne.symm h₂]

theorem cellLookup_cellInsert_other {a k : Nat} (h : k ≠ a) (b : Byte) (m : List Host.Cell) :
    cellLookup (cellInsert a b m) k = cellLookup m k := by
  induction m with
  | nil => simp [cellInsert, cellLookup, h.symm]
  | cons x rest ih =>
    obtain ⟨j, v⟩ := x
    unfold cellInsert
    split_ifs with h₁ h₂
    · simp [cellLookup, h.symm]
    · subst h₂
      simp [cellLookup, h.symm]
    · simp [cellLookup, ih]

theorem cellLookup_cellErase_same (a : Nat) (m : List Host.Cell) : cellLookup (cellErase a m) a = none := by
  induction m with
  | nil => rfl
  | cons x rest ih =>
    obtain ⟨k, v⟩ := x
    by_cases h : k = a
    · simpa [cellErase, h] using ih
    · simpa [cellErase, cellLookup, h] using ih

theorem cellLookup_cellErase_other {a k : Nat} (h : k ≠ a) (m : List Host.Cell) :
    cellLookup (cellErase a m) k = cellLookup m k := by
  induction m with
  | nil => rfl
  | cons x rest ih =>
    obtain ⟨j, v⟩ := x
    by_cases hj : j = a
    · subst hj
      simpa [cellErase, cellLookup, h.symm] using ih
    · have he : cellErase a ((j, v) :: rest) = (j, v) :: cellErase a rest := by simp [cellErase, hj]
      rw [he]
      simp only [cellLookup, ih]

/-- A read of the written byte gives the value written. -/
theorem memRead_memWrite_same (c : Config) (m : List Host.Cell) (a : Nat) (b : Byte) :
    memRead c (memWrite c m a b) a = b := by
  unfold memRead memWrite
  split_ifs with h
  · simp [cellLookup_cellErase_same, h]
  · simp [cellLookup_cellInsert_same]

/-- A write leaves every other byte alone. -/
theorem memRead_memWrite_other (c : Config) (m : List Host.Cell) {a k : Nat} (h : k ≠ a) (b : Byte) :
    memRead c (memWrite c m a b) k = memRead c m k := by
  unfold memRead memWrite
  split_ifs
  · rw [cellLookup_cellErase_other h]
  · rw [cellLookup_cellInsert_other h]

/-- `cfg[i]` after `cfg[i] <- b` is `b`. -/
@[simp] theorem State.readCfg_writeCfg_same (s : State) (i : CfgIndex) (b : Byte) : (s.writeCfg i b).readCfg i = b :=
  memRead_memWrite_same s.config s.cfg i.toNat b

/-- `cfg[k]` after `cfg[i] <- b` is as before, for `k ≠ i`. -/
theorem State.readCfg_writeCfg_other (s : State) {i k : CfgIndex} (h : k ≠ i) (b : Byte) :
    (s.writeCfg i b).readCfg k = s.readCfg k :=
  memRead_memWrite_other s.config s.cfg (fun e => h (BitVec.eq_of_toNat_eq e)) b

theorem mem_cellInsert {a : Nat} {b : Byte} {m : List Host.Cell} {x : Host.Cell} (h : x ∈ cellInsert a b m) :
    x = (a, b) ∨ x ∈ m := by
  induction m with
  | nil => simpa [cellInsert] using h
  | cons y rest ih =>
    obtain ⟨k, v⟩ := y
    unfold cellInsert at h
    split_ifs at h with h₁ h₂
    · simpa using h
    · rcases List.mem_cons.mp h with h | h
      · exact .inl h
      · exact .inr (List.mem_cons_of_mem _ h)
    · rcases List.mem_cons.mp h with h | h
      · exact .inr (h ▸ List.mem_cons_self)
      · exact (ih h).imp_right (List.mem_cons_of_mem _)

theorem pairwise_cellInsert {a : Nat} {b : Byte} {m : List Host.Cell} (h : m.Pairwise fun x y => x.1 < y.1) :
    (cellInsert a b m).Pairwise fun x y => x.1 < y.1 := by
  induction m with
  | nil => simp [cellInsert]
  | cons y rest ih =>
    obtain ⟨k, v⟩ := y
    obtain ⟨hk, hr⟩ := List.pairwise_cons.mp h
    unfold cellInsert
    split_ifs with h₁ h₂
    · refine List.pairwise_cons.mpr ⟨fun x hx => ?_, h⟩
      rcases List.mem_cons.mp hx with rfl | hx
      · exact h₁
      · exact lt_trans h₁ (hk x hx)
    · subst h₂
      exact List.pairwise_cons.mpr ⟨hk, hr⟩
    · refine List.pairwise_cons.mpr ⟨fun x hx => ?_, ih hr⟩
      rcases mem_cellInsert hx with rfl | hx
      · exact lt_of_le_of_ne (Nat.le_of_not_lt h₁) (Ne.symm h₂)
      · exact hk x hx

/-- The canonical form, as a proposition. -/
theorem Memory.wf_iff {c : Config} {m : List Host.Cell} :
    Memory.wf c m = true ↔
      (m.Pairwise fun x y => x.1 < y.1) ∧ ∀ x ∈ m, x.1 < 32 ∧ x.2 ≠ cfgUnlisted c x.1 := by
  simp [Memory.wf]

/-- A write at an index of the controller RAM keeps the canonical form. -/
theorem Memory.wf_memWrite {c : Config} {m : List Host.Cell} {a : Nat} (ha : a < 32) (b : Byte)
    (h : Memory.wf c m = true) : Memory.wf c (memWrite c m a b) = true := by
  obtain ⟨hs, hc⟩ := Memory.wf_iff.mp h
  refine Memory.wf_iff.mpr ?_
  unfold memWrite
  split_ifs with hb
  · exact ⟨hs.sublist List.filter_sublist, fun x hx => hc x (List.mem_of_mem_filter hx)⟩
  · refine ⟨pairwise_cellInsert hs, fun x hx => ?_⟩
    rcases mem_cellInsert hx with rfl | hx
    · exact ⟨ha, hb⟩
    · exact hc x hx

/-- `cfg[i] <- b` keeps the canonical form. -/
theorem Memory.wf_writeCfg {s : State} (i : CfgIndex) (b : Byte) (h : Memory.wf s.config s.cfg = true) :
    Memory.wf (s.writeCfg i b).config (s.writeCfg i b).cfg = true :=
  Memory.wf_memWrite i.isLt b h

/-- The controller RAM after reset is in canonical form. -/
theorem Memory.wf_reset (c : Config) : Memory.wf (State.resetWith c).config (State.resetWith c).cfg = true := rfl

end Sys2Proof.Machine
end

