-- ==== Sys2Proof/Laws/Ops.lean ====
section
/-!
SUPPORT. One lemma per shared operation: everything it can do, so that callers cite it and do not unfold it.
-/

namespace Sys2Proof.Machine

@[simp] theorem txEvents_nil (p : Port) : txEvents p [] = [] := rfl

@[simp] theorem txEvents_cons (p : Port) (b : Byte) (rest : List Byte) : txEvents p (b :: rest) = [.tx p (b :: rest)] := rfl

theorem txEvents_of_ne_nil (p : Port) {bytes : List Byte} (h : bytes ≠ []) : txEvents p bytes = [.tx p bytes] := by
  cases bytes with
  | nil => exact absurd rfl h
  | cons b rest => rfl

theorem mem_txEvents {p : Port} {bytes : List Byte} {e : Output} (h : e ∈ txEvents p bytes) :
    e = .tx p bytes ∧ bytes ≠ [] := by
  cases bytes with
  | nil => simp at h
  | cons b rest => exact ⟨by simpa using h, by simp⟩

theorem State.emitTx_eq (p : Port) (bytes : List Byte) (s : State) :
    s.emitTx p bytes = { s with out := s.out ++ txEvents p bytes } := rfl

theorem State.emitFlush_eq (s : State) : s.emitFlush = { s with out := s.out ++ [.flush] } := rfl

theorem State.captureIf_false (resp : List Byte) (s : State) : s.captureIf false resp = s := rfl

theorem State.captureIf_true_cons (b : Byte) (rest : List Byte) (s : State) :
    s.captureIf true (b :: rest) = { s with resend := b :: rest } := rfl

theorem State.captureIf_nil (on : Bool) (s : State) : s.captureIf on [] = s := by
  cases on <;> rfl

theorem State.setRate_eq (b : Byte) (s : State) :
    s.setRate b = { s with rateCode := b, firstDelayMs := rateFirstDelay b, interDelayMs := rateInterDelay b } := rfl

theorem State.typematicReset_eq (s : State) :
    s.typematicReset = { s with rateCode := 0x2B#8, firstDelayMs := 500, interDelayMs := 91 } := rfl

/-- The default delays are those of the default rate byte (R205). -/
theorem rateFirstDelay_default : rateFirstDelay 0x2B#8 = 500 := by decide

theorem rateInterDelay_default : rateInterDelay 0x2B#8 = 91 := by decide

theorem State.recover_eq (s : State) :
    s.recover = { s with
      enabled := false, rateCode := 0x2B#8, firstDelayMs := 500, interDelayMs := 91, out := s.out ++ [.flush] } := rfl

theorem State.respondNormal_nil (s : State) : s.respondNormal [] = s := by
  simp [State.respondNormal, State.captureIf_nil, State.emitTx, State.emit]

theorem State.respondNormal_cons (b : Byte) (rest : List Byte) (s : State) :
    s.respondNormal (b :: rest) = { s with resend := b :: rest, out := s.out ++ [.tx .data (b :: rest)] } := rfl

theorem State.respondOperand_nil (s : State) : s.respondOperand [] = { s with mode := .normal } := by
  simp [State.respondOperand, State.captureIf_nil, State.emitTx, State.emit, State.setMode]

theorem State.respondOperand_cons (b : Byte) (rest : List Byte) (s : State) :
    s.respondOperand (b :: rest) = { s with
      mode := .normal,
      resend := if capturesOperands s.config.resendCapture then b :: rest else s.resend,
      out := s.out ++ [.tx .data (b :: rest)] } := by
  cases h : capturesOperands s.config.resendCapture <;>
    simp [State.respondOperand, State.captureIf, State.emitTx, State.emit, State.setMode, h]

theorem State.respondCmd_nil (s : State) : s.respondCmd [] = s := by
  simp [State.respondCmd, State.captureIf_nil, State.emitTx, State.emit]

theorem State.respondCmd_cons (b : Byte) (rest : List Byte) (s : State) :
    s.respondCmd (b :: rest) = { s with
      resend := if capturesCommands s.config.resendCapture then b :: rest else s.resend,
      out := s.out ++ [.tx .cmd (b :: rest)] } := by
  cases h : capturesCommands s.config.resendCapture <;>
    simp [State.respondCmd, State.captureIf, State.emitTx, State.emit, h]

theorem State.keyTransition_eq (row col : Byte) (pressed : Bool) (s : State) :
    s.keyTransition row col pressed =
      { s with out := s.out ++ txEvents .key (keyBytes (scanEncode s.config row col pressed s.scancodeSet)) } := rfl

theorem overrideSet_one : overrideSet [.int 1] = some 1#8 := rfl

theorem overrideSet_two : overrideSet [.int 2] = some 2#8 := rfl

/-- The console accepts nothing but one integer argument, 1 or 2 (R221, R222). -/
theorem overrideSet_eq_some {args : List ConArg} {set : Byte} (h : overrideSet args = some set) :
    (args = [.int 1] ∧ set = 1#8) ∨ (args = [.int 2] ∧ set = 2#8) := by
  unfold overrideSet at h
  split at h
  · split_ifs at h with h₁ h₂
    · subst h₁
      exact .inl ⟨rfl, (Option.some.inj h).symm⟩
    · subst h₂
      exact .inr ⟨rfl, (Option.some.inj h).symm⟩
  · exact absurd h (by simp)

@[simp] theorem queueAfter_tx (q : List Byte) (p : Port) (bytes : List Byte) : queueAfter q (.tx p bytes) = q ++ bytes := rfl

@[simp] theorem queueAfter_flush (q : List Byte) : queueAfter q .flush = [] := rfl

@[simp] theorem queueAfter_conValue (q : List Byte) (v : Byte) : queueAfter q (.conValue v) = q := rfl

@[simp] theorem queueAfter_conRejected (q : List Byte) : queueAfter q .conRejected = q := rfl

theorem transportQueue_append (xs ys : List Output) :
    transportQueue (xs ++ ys) = ys.foldl queueAfter (transportQueue xs) := by
  simp [transportQueue, List.foldl_append]

theorem fetch_nil {s : State} (h : s.inbox = []) : fetch s = none := by
  simp [fetch, h]

theorem fetch_cons {s : State} {a : Arrival} {rest : List Arrival} (h : s.inbox = a :: rest) :
    fetch s = some (a, { s with inbox := rest }) := by
  simp [fetch, h, State.setInbox]

end Sys2Proof.Machine
end

