-- ==== Sys2Proof/Laws/PerInstr.lean ====
section
/-!
SUPPORT. Family RoundTrip, one lemma per constructor of `Instr`: in an admitted configuration, decoding the item that encodes a
well-formed instruction, in a mode it meets, gives the instruction back.
-/

namespace Sys2Proof.Laws

/-- What an admitted configuration says of its single codes and windows. -/
theorem config_codes {c : Config} (h : c.wf = true) :
    c.singleCodes.Nodup ∧ c.cfgReadBase.toNat + 31 ≤ 255 ∧ c.cfgWriteBase.toNat + 31 ≤ 255 ∧
      (c.cfgReadBase.toNat + 31 < c.cfgWriteBase.toNat ∨ c.cfgWriteBase.toNat + 31 < c.cfgReadBase.toNat) := by
  simp only [Config.wf, Config.codesDistinct, Config.windowsFit, Config.windowsApart, Bool.and_eq_true, Bool.or_eq_true,
    decide_eq_true_eq] at h
  exact ⟨h.1.1.1.1.1, h.1.1.1.1.2.1, h.1.1.1.1.2.2, h.1.1.1.2⟩

/-- A byte that is no single code is decoded by its window. -/
theorem decodeCmd_of_not_single {c : Config} {b : Byte} (h : c.singleCodes.contains b = false) :
    decodeCmd c b =
      if c.cfgReadBase.toNat ≤ b.toNat ∧ b.toNat ≤ c.cfgReadBase.toNat + 31 then .cRdram (windowIndex c.cfgReadBase b)
      else if c.cfgWriteBase.toNat ≤ b.toNat ∧ b.toNat ≤ c.cfgWriteBase.toNat + 31 then
        .cWrram (windowIndex c.cfgWriteBase b)
      else .cUnrec b := by
  simp only [Config.singleCodes, List.contains_eq_mem, List.mem_cons, List.not_mem_nil, or_false, decide_eq_false_iff_not,
    not_or] at h
  obtain ⟨h1, h2, h3, h4, h5, h6, h7, h8⟩ := h
  simp [decodeCmd, h1, h2, h3, h4, h5, h6, h7, h8]

theorem toNat_window {base : Byte} (hb : base.toNat + 31 ≤ 255) (i : CfgIndex) :
    (base + i.setWidth 8).toNat = base.toNat + i.toNat := by
  have hi := i.isLt
  rw [BitVec.toNat_add, BitVec.toNat_setWidth]
  omega

theorem windowIndex_add (base : Byte) (i : CfgIndex) : windowIndex base (base + i.setWidth 8) = i := by
  have hi := i.isLt
  apply BitVec.eq_of_toNat_eq
  simp only [windowIndex, BitVec.toNat_setWidth, BitVec.toNat_sub, BitVec.toNat_add]
  have hb := base.isLt
  omega

/-- The family's statement about one instruction. -/
def RoundTrip.Statement (i : Instr) : Prop :=
  ∀ (c : Config) (m : Mode), c.wf = true → WellFormed c i = true → (encode c i).meets m = true →
    decode c m (encode c i).arrival = .ok i

theorem RoundTrip.dScanset : RoundTrip.Statement .dScanset := by
  intro c m hc hw hm
  obtain rfl : m = .normal := by simpa [encode, onData, Encoded.meets] using hm
  rfl

theorem RoundTrip.dSetleds : RoundTrip.Statement .dSetleds := by
  intro c m hc hw hm
  obtain rfl : m = .normal := by simpa [encode, onData, Encoded.meets] using hm
  rfl

theorem RoundTrip.dIdentify : RoundTrip.Statement .dIdentify := by
  intro c m hc hw hm
  obtain rfl : m = .normal := by simpa [encode, onData, Encoded.meets] using hm
  rfl

theorem RoundTrip.dSetrate : RoundTrip.Statement .dSetrate := by
  intro c m hc hw hm
  obtain rfl : m = .normal := by simpa [encode, onData, Encoded.meets] using hm
  rfl

theorem RoundTrip.dEnable : RoundTrip.Statement .dEnable := by
  intro c m hc hw hm
  obtain rfl : m = .normal := by simpa [encode, onData, Encoded.meets] using hm
  rfl

theorem RoundTrip.dDisable : RoundTrip.Statement .dDisable := by
  intro c m hc hw hm
  obtain rfl : m = .normal := by simpa [encode, onData, Encoded.meets] using hm
  rfl

theorem RoundTrip.dSetdefault : RoundTrip.Statement .dSetdefault := by
  intro c m hc hw hm
  obtain rfl : m = .normal := by simpa [encode, onData, Encoded.meets] using hm
  rfl

theorem RoundTrip.dReset : RoundTrip.Statement .dReset := by
  intro c m hc hw hm
  obtain rfl : m = .normal := by simpa [encode, onData, Encoded.meets] using hm
  rfl

theorem RoundTrip.dResend : RoundTrip.Statement .dResend := by
  intro c m hc hw hm
  obtain rfl : m = .normal := by simpa [encode, onData, Encoded.meets] using hm
  rfl

theorem RoundTrip.dQuirk60 : RoundTrip.Statement .dQuirk60 := by
  intro c m hc hw hm
  obtain rfl : m = .normal := by simpa [encode, onData, Encoded.meets] using hm
  rfl

theorem RoundTrip.dQuirk45 : RoundTrip.Statement .dQuirk45 := by
  intro c m hc hw hm
  obtain rfl : m = .normal := by simpa [encode, onData, Encoded.meets] using hm
  rfl

theorem RoundTrip.dUnsup (b : Byte) : RoundTrip.Statement (.dUnsup b) := by
  intro c m hc hw hm
  obtain rfl : m = .normal := by simpa [encode, onData, Encoded.meets] using hm
  have h : b ∉ normalCodes := by simpa [WellFormed] using hw
  simp only [normalCodes, List.mem_cons, List.not_mem_nil, or_false, not_or] at h
  obtain ⟨h1, h2, h3, h4, h5, h6, h7, h8, h9, h10, h11⟩ := h
  simp [encode, onData, decode, decodeData, decodeNormal, h1, h2, h3, h4, h5, h6, h7, h8, h9, h10, h11]

theorem RoundTrip.dScansetGet : RoundTrip.Statement .dScansetGet := by
  intro c m hc hw hm
  obtain rfl : m = .awaitingScancodeSetValue := by simpa [encode, onData, Encoded.meets] using hm
  simp [encode, onData, decode, decodeData]

theorem RoundTrip.dScansetSet (b : Byte) : RoundTrip.Statement (.dScansetSet b) := by
  intro c m hc hw hm
  obtain rfl : m = .awaitingScancodeSetValue := by simpa [encode, onData, Encoded.meets] using hm
  have h : b ≠ c.scansetGet := by simpa [WellFormed] using hw
  simp [encode, onData, decode, decodeData, h]

theorem RoundTrip.dLedValue (b : Byte) : RoundTrip.Statement (.dLedValue b) := by
  intro c m hc hw hm
  obtain rfl : m = .awaitingLedValue := by simpa [encode, onData, Encoded.meets] using hm
  rfl

theorem RoundTrip.dCfgValue (b : Byte) : RoundTrip.Statement (.dCfgValue b) := by
  intro c m hc hw hm
  obtain rfl : m = .awaitingConfigByteValue := by simpa [encode, onData, Encoded.meets] using hm
  rfl

theorem RoundTrip.dEchoValue (b : Byte) : RoundTrip.Statement (.dEchoValue b) := by
  intro c m hc hw hm
  obtain rfl : m = .echoToCaller := by simpa [encode, onData, Encoded.meets] using hm
  rfl

theorem RoundTrip.dAuxValue (b : Byte) : RoundTrip.Statement (.dAuxValue b) := by
  intro c m hc hw hm
  obtain rfl : m = .forwardToSecondaryDevice := by simpa [encode, onData, Encoded.meets] using hm
  rfl

theorem RoundTrip.dRateValue (b : Byte) : RoundTrip.Statement (.dRateValue b) := by
  intro c m hc hw hm
  obtain rfl : m = .awaitingTypematicValue := by simpa [encode, onData, Encoded.meets] using hm
  have h : c.typematicOperand = .nextDataByte := by simpa [WellFormed] using hw
  simp [encode, onData, decode, decodeData, h]

theorem RoundTrip.cRdcfg : RoundTrip.Statement .cRdcfg := by
  intro c m hc hw hm
  simp [encode, onCmd, decode, decodeCmd]

theorem RoundTrip.cWrcfg : RoundTrip.Statement .cWrcfg := by
  intro c m hc hw hm
  have hn := (config_codes hc).1
  simp only [Config.singleCodes, List.nodup_cons, List.mem_cons, List.not_mem_nil, or_false, not_or] at hn
  simp only [encode, onCmd, decode, decodeCmd]
  simp [Ne.symm, hn]

theorem RoundTrip.cKbddis : RoundTrip.Statement .cKbddis := by
  intro c m hc hw hm
  have hn := (config_codes hc).1
  simp only [Config.singleCodes, List.nodup_cons, List.mem_cons, List.not_mem_nil, or_false, not_or] at hn
  simp only [encode, onCmd, decode, decodeCmd]
  simp [Ne.symm, hn]

theorem RoundTrip.cKbden : RoundTrip.Statement .cKbden := by
  intro c m hc hw hm
  have hn := (config_codes hc).1
  simp only [Config.singleCodes, List.nodup_cons, List.mem_cons, List.not_mem_nil, or_false, not_or] at hn
  simp only [encode, onCmd, decode, decodeCmd]
  simp [Ne.symm, hn]

theorem RoundTrip.cAuxdis : RoundTrip.Statement .cAuxdis := by
  intro c m hc hw hm
  have hn := (config_codes hc).1
  simp only [Config.singleCodes, List.nodup_cons, List.mem_cons, List.not_mem_nil, or_false, not_or] at hn
  simp only [encode, onCmd, decode, decodeCmd]
  simp [Ne.symm, hn]

theorem RoundTrip.cAuxen : RoundTrip.Statement .cAuxen := by
  intro c m hc hw hm
  have hn := (config_codes hc).1
  simp only [Config.singleCodes, List.nodup_cons, List.mem_cons, List.not_mem_nil, or_false, not_or] at hn
  simp only [encode, onCmd, decode, decodeCmd]
  simp [Ne.symm, hn]

theorem RoundTrip.cAuxecho : RoundTrip.Statement .cAuxecho := by
  intro c m hc hw hm
  have hn := (config_codes hc).1
  simp only [Config.singleCodes, List.nodup_cons, List.mem_cons, List.not_mem_nil, or_false, not_or] at hn
  simp only [encode, onCmd, decode, decodeCmd]
  simp [Ne.symm, hn]

theorem RoundTrip.cAuxsend : RoundTrip.Statement .cAuxsend := by
  intro c m hc hw hm
  have hn := (config_codes hc).1
  simp only [Config.singleCodes, List.nodup_cons, List.mem_cons, List.not_mem_nil, or_false, not_or] at hn
  simp only [encode, onCmd, decode, decodeCmd]
  simp [Ne.symm, hn]

theorem RoundTrip.cRdram (i : CfgIndex) : RoundTrip.Statement (.cRdram i) := by
  intro c m hc hw hm
  obtain ⟨-, hr, hwb, hap⟩ := config_codes hc
  have h : c.singleCodes.contains (c.cfgReadBase + i.setWidth 8) = false := by simpa [WellFormed] using hw
  have hi := i.isLt
  have ht := toNat_window hr i
  simp only [encode, onCmd, decode, decodeCmd_of_not_single h, windowIndex_add]
  rw [if_pos ⟨by omega, by omega⟩]

theorem RoundTrip.cWrram (i : CfgIndex) : RoundTrip.Statement (.cWrram i) := by
  intro c m hc hw hm
  obtain ⟨-, hr, hwb, hap⟩ := config_codes hc
  have h : c.singleCodes.contains (c.cfgWriteBase + i.setWidth 8) = false := by simpa [WellFormed] using hw
  have hi := i.isLt
  have ht := toNat_window hwb i
  simp only [encode, onCmd, decode, decodeCmd_of_not_single h, windowIndex_add]
  rw [if_neg (by omega), if_pos ⟨by omega, by omega⟩]

theorem RoundTrip.cUnrec (b : Byte) : RoundTrip.Statement (.cUnrec b) := by
  intro c m hc hw hm
  simp only [WellFormed, windowHolds, Bool.and_eq_true, Bool.not_eq_true', Bool.and_eq_false_iff, decide_eq_false_iff_not] at hw
  obtain ⟨⟨h, h1⟩, h2⟩ := hw
  simp only [encode, onCmd, decode, decodeCmd_of_not_single h]
  rw [if_neg (by omega), if_neg (by omega)]

theorem RoundTrip.kPress (row col : Byte) : RoundTrip.Statement (.kPress row col) := by
  intro c m hc hw hm
  rfl

theorem RoundTrip.kRelease (row col : Byte) : RoundTrip.Statement (.kRelease row col) := by
  intro c m hc hw hm
  rfl

theorem RoundTrip.nReport : RoundTrip.Statement .nReport := by
  intro c m hc hw hm
  rfl

theorem RoundTrip.nOverride (args : List ConArg) : RoundTrip.Statement (.nOverride args) := by
  intro c m hc hw hm
  cases args with
  | nil => simp [WellFormed] at hw
  | cons a rest => rfl

end Sys2Proof.Laws
end

