-- ==== Sys2Proof/Laws/Step.lean ====
section
/-!
SUPPORT. What one step can do, said once.
-/

namespace Sys2Proof.Machine

theorem step_of_inbox_nil {s : State} (h : s.inbox = []) : step s = .next s := by
  simp [step, fetch_nil h]

theorem step_of_decode_ok {s : State} {a : Arrival} {rest : List Arrival} {i : Instr} (h : s.inbox = a :: rest)
    (hd : decode s.config s.mode a = .ok i) : step s = exec i { s with inbox := rest } := by
  simp [step, fetch_cons h, hd]

theorem step_of_decode_error {s : State} {a : Arrival} {rest : List Arrival} {e : DecodeError} (h : s.inbox = a :: rest)
    (hd : decode s.config s.mode a = .error e) : step s = .refused (refusalOf e) := by
  simp [step, fetch_cons h, hd]

/-- A step that answers a next state either waits, because nothing has arrived, or runs the transaction of the next item. -/
theorem step_next_cases {s t : State} (h : step s = .next t) :
    (s.inbox = [] ∧ t = s) ∨
    ∃ a rest i, s.inbox = a :: rest ∧ decode s.config s.mode a = .ok i ∧ exec i { s with inbox := rest } = .next t := by
  cases hb : s.inbox with
  | nil =>
    rw [step_of_inbox_nil hb] at h
    injection h with h
    exact .inl ⟨rfl, h.symm⟩
  | cons a rest =>
    cases hd : decode s.config s.mode a with
    | error e => rw [step_of_decode_error hb hd] at h; exact absurd h (by simp)
    | ok i => exact .inr ⟨a, rest, i, rfl, hd, by rwa [step_of_decode_ok hb hd] at h⟩

/-- The only item that is not decoded: a `DATA` byte in a mode the configuration does not have. -/
theorem decode_eq_error {c : Config} {m : Mode} {a : Arrival} {e : DecodeError} (h : decode c m a = .error e) :
    m = .awaitingTypematicValue ∧ c.typematicOperand ≠ .nextDataByte := by
  cases a with
  | data b =>
    cases m with
    | awaitingTypematicValue =>
      refine ⟨rfl, fun ht => ?_⟩
      simp [decode, decodeData, ht] at h
    | normal | awaitingScancodeSetValue | awaitingLedValue | awaitingConfigByteValue | echoToCaller
    | forwardToSecondaryDevice => simp [decode, decodeData] at h
  | cmd b => simp [decode] at h
  | key row col pressed => simp [decode] at h
  | con args => simp [decode] at h

end Sys2Proof.Machine
end

