-- ==== Sys2Proof/Tests/Slice0.lean ====
section
/-!
SUPPORT. The model's own tests: decoding of items written out from spec/30_encoding.md, a smoke test of the well-formedness
checks, small vectors of spec/95_test_vectors.md (one step each), and a witness for every statement that has hypotheses.
-/

namespace Sys2Proof.Tests

open Sys2Proof.Machine

/-! ## Helpers -/

/-- A table with the given entries, 0 elsewhere. -/
def tableOf (entries : List (Fin 8 × Fin 13 × MakeCode)) : MakeTable :=
  entries.foldl (fun t e => t.set e.1 (t[e.1].set e.2.1 e.2.2)) (Vector.replicate 8 (Vector.replicate 13 0#16))

/-- The defaults of R7 with the test tables `TT` of spec/95_test_vectors.md and chosen values of the open parameters that have
no default. -/
def testConfig : Config where
  set1Table := tableOf [(0, 1, 0x0001#16), (1, 2, 0xE01D#16), (2, 2, 0x0100#16), (3, 3, 0x0080#16), (6, 0, 0x00FF#16)]
  set2Table := tableOf [(0, 1, 0x0076#16), (1, 2, 0xE014#16), (2, 2, 0x0100#16), (4, 4, 0x00F0#16), (5, 5, 0x0012#16),
    (6, 0, 0x00FF#16)]
  scansetGet := 0x00#8
  maxScanCodeLen := 4
  selftestPass0 := 0x11#8
  selftestPass1 := 0x22#8
  typematicOperand := .commandByte
  resendCapture := .normalModeOnly
  cmdReadCfg := 0x20#8
  cmdWriteCfg := 0x60#8
  cmdKbdDis := 0xAD#8
  cmdKbdEn := 0xAE#8
  cmdAuxDis := 0xA7#8
  cmdAuxEn := 0xA8#8
  cmdAuxEcho := 0xD3#8
  cmdAuxSend := 0xD4#8
  cfgReadBase := 0x20#8
  cfgWriteBase := 0x60#8
  kbdDisBit := 4
  auxDisBit := 5
  resetEnabled := false
  cfgReset := (Vector.replicate 32 0x00#8).set 0 0x45#8 |>.set 5 0x99#8
  overridePrints := true

/-- The variant of `testConfig` with the seventh mode. -/
def testConfig7 : Config := { testConfig with typematicOperand := .nextDataByte }

/-- A state of `testConfig` with the reset values of R30. -/
def st : State where
  config := testConfig
  inbox := []
  mode := .normal
  scancodeSet := 2#8
  enabled := false
  cfg := []
  cfgAddr := 0#5
  rateCode := 0x2B#8
  firstDelayMs := 500
  interDelayMs := 91
  firstCounter := 0
  interCounter := 0
  resend := []
  out := []

/-- The state a step or a meaning answers, if it answers one. -/
def after : Result → Option State
  | .next t => some t
  | .fault _ => none
  | .refused _ => none

/-- `s` with items delivered. -/
def feed (items : List Arrival) (s : State) : State := { s with inbox := items }

/-- What the step of one delivered item emits. -/
def emitted (a : Arrival) (s : State) : Option (List Output) := (after (step (feed [a] s))).map (·.out)

/-- One field of the state after the step of one delivered item. -/
def observe {α : Type} (f : State → α) (a : Arrival) (s : State) : Option α := (after (step (feed [a] s))).map f

/-! ## Decoding: one item written out for every constructor (R63, R64, R65, R69, R60) -/

theorem test_decode_dScanset : decode testConfig .normal (.data 0b11110000#8) = .ok .dScanset := by decide

theorem test_decode_dSetleds : decode testConfig .normal (.data 0b11101101#8) = .ok .dSetleds := by decide

theorem test_decode_dIdentify : decode testConfig .normal (.data 0b11110010#8) = .ok .dIdentify := by decide

theorem test_decode_dSetrate : decode testConfig .normal (.data 0b11110011#8) = .ok .dSetrate := by decide

theorem test_decode_dEnable : decode testConfig .normal (.data 0b11110100#8) = .ok .dEnable := by decide

theorem test_decode_dDisable : decode testConfig .normal (.data 0b11110101#8) = .ok .dDisable := by decide

theorem test_decode_dSetdefault : decode testConfig .normal (.data 0b11110110#8) = .ok .dSetdefault := by decide

theorem test_decode_dReset : decode testConfig .normal (.data 0b11111111#8) = .ok .dReset := by decide

theorem test_decode_dResend : decode testConfig .normal (.data 0b11111110#8) = .ok .dResend := by decide

theorem test_decode_dQuirk60 : decode testConfig .normal (.data 0b01100000#8) = .ok .dQuirk60 := by decide

theorem test_decode_dQuirk45 : decode testConfig .normal (.data 0b01000101#8) = .ok .dQuirk45 := by decide

theorem test_decode_dUnsup : decode testConfig .normal (.data 0b11101110#8) = .ok (.dUnsup 0xEE#8) := by decide

theorem test_decode_dScansetGet : decode testConfig .awaitingScancodeSetValue (.data 0b00000000#8) = .ok (.dScansetGet) := by decide

theorem test_decode_dScansetSet : decode testConfig .awaitingScancodeSetValue (.data 0b11111110#8) = .ok (.dScansetSet 0xFE#8) := by decide

theorem test_decode_dLedValue : decode testConfig .awaitingLedValue (.data 0b00000111#8) = .ok (.dLedValue 0x07#8) := by decide

theorem test_decode_dCfgValue : decode testConfig .awaitingConfigByteValue (.data 0b01000101#8) = .ok (.dCfgValue 0x45#8) := by decide

theorem test_decode_dEchoValue : decode testConfig .echoToCaller (.data 0b01011010#8) = .ok (.dEchoValue 0x5A#8) := by decide

theorem test_decode_dAuxValue : decode testConfig .forwardToSecondaryDevice (.data 0b11110100#8) = .ok (.dAuxValue 0xF4#8) := by decide

theorem test_decode_dRateValue : decode testConfig7 .awaitingTypematicValue (.data 0b01010100#8) = .ok (.dRateValue 0x54#8) := by
  decide

theorem test_decode_cRdcfg : decode testConfig .awaitingLedValue (.cmd 0b00100000#8) = .ok (.cRdcfg) := by decide

theorem test_decode_cWrcfg : decode testConfig .awaitingLedValue (.cmd 0b01100000#8) = .ok (.cWrcfg) := by decide

theorem test_decode_cKbddis : decode testConfig .awaitingLedValue (.cmd 0b10101101#8) = .ok (.cKbddis) := by decide

theorem test_decode_cKbden : decode testConfig .awaitingLedValue (.cmd 0b10101110#8) = .ok (.cKbden) := by decide

theorem test_decode_cAuxdis : decode testConfig .awaitingLedValue (.cmd 0b10100111#8) = .ok (.cAuxdis) := by decide

theorem test_decode_cAuxen : decode testConfig .awaitingLedValue (.cmd 0b10101000#8) = .ok (.cAuxen) := by decide

theorem test_decode_cAuxecho : decode testConfig .awaitingLedValue (.cmd 0b11010011#8) = .ok (.cAuxecho) := by decide

theorem test_decode_cAuxsend : decode testConfig .awaitingLedValue (.cmd 0b11010100#8) = .ok (.cAuxsend) := by decide

theorem test_decode_cRdram : decode testConfig .awaitingLedValue (.cmd 0b00100101#8) = .ok (.cRdram 5#5) := by decide

theorem test_decode_cWrram : decode testConfig .awaitingLedValue (.cmd 0b01111111#8) = .ok (.cWrram 31#5) := by decide

theorem test_decode_cUnrec : decode testConfig .awaitingLedValue (.cmd 0b10000000#8) = .ok (.cUnrec 0x80#8) := by decide

theorem test_decode_kPress : decode testConfig .normal (.key 7#8 12#8 true) = .ok (.kPress 7#8 12#8) := by decide

theorem test_decode_kRelease : decode testConfig .normal (.key 7#8 12#8 false) = .ok (.kRelease 7#8 12#8) := by decide

theorem test_decode_nReport : decode testConfig .normal (.con []) = .ok .nReport := by decide

theorem test_decode_nOverride : decode testConfig .normal (.con [.int 2]) = .ok (.nOverride [.int 2]) := by decide

/-- The windows end at 0x1F/0x20, 0x3F/0x40, 0x5F/0x60, 0x7F/0x80 (R65). -/
theorem test_decode_window_edges :
    decodeCmd testConfig 0x1F#8 = .cUnrec 0x1F#8 ∧ decodeCmd testConfig 0x21#8 = .cRdram 1#5 ∧
    decodeCmd testConfig 0x3F#8 = .cRdram 31#5 ∧ decodeCmd testConfig 0x40#8 = .cUnrec 0x40#8 ∧
    decodeCmd testConfig 0x5F#8 = .cUnrec 0x5F#8 ∧ decodeCmd testConfig 0x61#8 = .cWrram 1#5 ∧
    decodeCmd testConfig 0x80#8 = .cUnrec 0x80#8 := by decide

/-- Words of spec/opcode_table.json: a `DATA` row, a `CMD` row, the default row and a `KEY` row (log 4). -/
theorem test_decode_table_words :
    decodeTableWord 8 0xF0 = some .dScanset ∧ decodeTableWord 8 0xA7 = some .cAuxdis ∧
    decodeTableWord 8 0x99 = some (.dUnsup 0x99#8) ∧ decodeTableWord 1 1 = some (.kPress 0#8 0#8) := by decide

/-! ## Well-formedness: each check refuses an ill-formed term -/

theorem test_wf_dUnsup_listed_code : WellFormed testConfig (.dUnsup 0xF0#8) = false := by decide

theorem test_wf_dScansetSet_sentinel : WellFormed testConfig (.dScansetSet 0x00#8) = false := by decide

theorem test_wf_dRateValue_absent_mode : WellFormed testConfig (.dRateValue 0x00#8) = false := by decide

theorem test_wf_cRdram_single_code : WellFormed testConfig (.cRdram 0#5) = false := by decide

theorem test_wf_cWrram_single_code : WellFormed testConfig (.cWrram 0#5) = false := by decide

theorem test_wf_cUnrec_single_code : WellFormed testConfig (.cUnrec 0xAD#8) = false := by decide

theorem test_wf_cUnrec_windows :
    WellFormed testConfig (.cUnrec 0x3F#8) = false ∧ WellFormed testConfig (.cUnrec 0x7F#8) = false := by decide

theorem test_wf_nOverride_without_argument : WellFormed testConfig (.nOverride []) = false := by decide

theorem test_wf_config : testConfig.wf = true ∧ testConfig7.wf = true := by decide

theorem test_wf_config_codes_distinct : Config.codesDistinct { testConfig with cmdKbdEn := 0xAD#8 } = false := by decide

theorem test_wf_config_windows_fit : Config.windowsFit { testConfig with cfgWriteBase := 0xE1#8 } = false := by decide

theorem test_wf_config_windows_apart : Config.windowsApart { testConfig with cfgWriteBase := 0x3F#8 } = false := by decide

theorem test_wf_config_codes_outside_windows :
    Config.codesOutsideWindows { testConfig with cmdReadCfg := 0x21#8 } = false ∧
    Config.codesOutsideWindows { testConfig with cmdAuxEcho := 0x70#8 } = false := by decide

theorem test_wf_config_buffer_fits : Config.bufferFits { testConfig with maxScanCodeLen := 2 } = false := by decide

theorem test_wf_config_known_entry :
    Config.knownEntry { testConfig with set2Table := testConfig.set1Table } = false := by decide

/-! ## The encoder (vectors E1 to E30 of spec/95_test_vectors.md section 2) -/

theorem test_encode_one_byte :
    scanEncode testConfig 0#8 1#8 true 2#8 = .ok [0x76#8] ∧ scanEncode testConfig 0#8 1#8 false 2#8 = .ok [0xF0#8, 0x76#8] ∧
    scanEncode testConfig 0#8 1#8 false 1#8 = .ok [0x81#8] := by decide

theorem test_encode_two_bytes :
    scanEncode testConfig 1#8 2#8 true 1#8 = .ok [0xE0#8, 0x1D#8] ∧
    scanEncode testConfig 1#8 2#8 false 1#8 = .ok [0xE0#8, 0x9D#8] ∧
    scanEncode testConfig 1#8 2#8 false 2#8 = .ok [0xE0#8, 0xF0#8, 0x14#8] := by decide

theorem test_encode_length_boundary :
    scanEncode testConfig 2#8 2#8 false 2#8 = .ok [0x01#8, 0xF0#8, 0x00#8] ∧
    scanEncode testConfig 6#8 0#8 true 2#8 = .ok [0xFF#8] := by decide

theorem test_encode_errors :
    scanEncode testConfig 7#8 12#8 true 2#8 = .error .noMapping ∧ scanEncode testConfig 8#8 0#8 true 3#8 = .error .outOfRange ∧
    scanEncode testConfig 0#8 13#8 false 1#8 = .error .outOfRange ∧
    scanEncode testConfig 0#8 1#8 true 0#8 = .error .unsupportedSet := by decide

/-! ## The typematic unit (vectors T1 to T14 of section 4) -/

theorem test_rate_vectors :
    (rateFirstDelay 0x00#8, rateInterDelay 0x00#8) = (250, 33) ∧ (rateFirstDelay 0x7F#8, rateInterDelay 0x7F#8) = (1000, 500) ∧
    (rateFirstDelay 0xF3#8, rateInterDelay 0xF3#8) = (1000, 183) ∧ (rateFirstDelay 0x54#8, rateInterDelay 0x54#8) = (750, 200) ∧
    (rateFirstDelay 0x48#8, rateInterDelay 0x48#8) = (750, 66) ∧ (rateFirstDelay 0x80#8, rateInterDelay 0x80#8) = (250, 33) := by
  decide

/-! ## One step (vectors of sections 3, 5 and 6) -/

/-- V1. -/
theorem test_step_scanset : observe (·.mode) (.data 0xF0#8) st = some .awaitingScancodeSetValue := by decide

/-- V2. -/
theorem test_step_setleds : observe (·.mode) (.data 0xED#8) st = some .awaitingLedValue := by decide

/-- V3. -/
theorem test_step_identify : emitted (.data 0xF2#8) st = some [.tx .data [0xFA#8, 0xAB#8, 0x83#8]] := by decide

/-- V4. -/
theorem test_step_setrate_command_byte : observe (fun t => (t.mode, t.interDelayMs)) (.data 0xF3#8) st = some (.normal, 183) := by
  decide

/-- V5. -/
theorem test_step_setrate_next_byte :
    observe (fun t => (t.mode, t.interDelayMs)) (.data 0xF3#8) { st with config := testConfig7 } =
      some (.awaitingTypematicValue, 91) := by decide

/-- V7: enabling an enabled device still flushes. -/
theorem test_step_enable : emitted (.data 0xF4#8) { st with enabled := true } = some [.flush, .tx .data [0xFA#8]] := by decide

/-- V8. -/
theorem test_step_disable :
    observe (fun t => (t.enabled, t.rateCode)) (.data 0xF5#8) { st with enabled := true, rateCode := 0x00#8 } =
      some (false, 0x2B#8) := by decide

/-- V9. -/
theorem test_step_setdefault :
    observe (fun t => (t.enabled, t.interDelayMs)) (.data 0xF6#8) { st with enabled := true, interDelayMs := 500 } =
      some (true, 91) := by decide

/-- V10: no flush, the timing stays. -/
theorem test_step_reset :
    emitted (.data 0xFF#8) st = some [.tx .data [0xFA#8, 0x11#8, 0x22#8]] ∧
    observe (·.interDelayMs) (.data 0xFF#8) { st with interDelayMs := 33 } = some 33 := by decide

/-- V12. -/
theorem test_step_resend :
    emitted (.data 0xFE#8) { st with resend := [0xFA#8, 0xAB#8, 0x83#8] } =
      some [.tx .data [0xFA#8, 0xFA#8, 0xAB#8, 0x83#8]] := by decide

/-- V14, V15. -/
theorem test_step_quirks :
    emitted (.data 0x60#8) st = some [] ∧ observe (·.resend) (.data 0x45#8) { st with resend := [0x01#8] } = some [0x01#8] := by
  decide

/-- V17. -/
theorem test_step_unsup :
    emitted (.data 0xEE#8) st = some [.flush, .tx .data [0xFE#8]] ∧
    observe (·.enabled) (.data 0xEE#8) { st with enabled := true } = some false := by decide

/-- V22: the response of an operand byte is not captured by default. -/
theorem test_step_scanset_get :
    observe (fun t => (t.out, t.resend)) (.data 0x00#8) { st with mode := .awaitingScancodeSetValue, resend := [0xFA#8] } =
      some ([.tx .data [0xFA#8, 0x02#8]], [0xFA#8]) := by decide

/-- V27. -/
theorem test_step_scanset_set :
    observe (fun t => (t.mode, t.scancodeSet)) (.data 0xFE#8) { st with mode := .awaitingScancodeSetValue } =
      some (.normal, 0xFE#8) := by decide

/-- V29: 0xFF as an LED byte is no reset. -/
theorem test_step_led_value :
    observe (fun t => (t.out, t.enabled)) (.data 0xFF#8) { st with mode := .awaitingLedValue, enabled := true } =
      some ([.tx .data [0xFA#8]], true) := by decide

/-- V31. -/
theorem test_step_cfg_value :
    observe (fun t => (t.readCfg 31#5, t.readCfg 0#5)) (.data 0xAA#8)
      { st with mode := .awaitingConfigByteValue, cfgAddr := 31#5 } = some (0xAA#8, 0x45#8) := by decide

/-- V33: an echo, no ACK added. -/
theorem test_step_echo_value : emitted (.data 0x5A#8) { st with mode := .echoToCaller } = some [.tx .data [0x5A#8]] := by decide

/-- V34. -/
theorem test_step_aux_value :
    observe (fun t => (t.out, t.enabled)) (.data 0xF4#8) { st with mode := .forwardToSecondaryDevice } = some ([], false) := by
  decide

/-- V36. -/
theorem test_step_rate_value :
    observe (fun t => (t.rateCode, t.interDelayMs)) (.data 0xFF#8)
      { st with config := testConfig7, mode := .awaitingTypematicValue } = some (0xFF#8, 500) := by decide

/-- The `RESEND_CAPTURE` table of section 3, steps 3 and 5. -/
theorem test_step_resend_capture :
    observe (·.resend) (.data 0x00#8)
      { st with config := { testConfig with resendCapture := .allData }, mode := .awaitingScancodeSetValue } =
        some [0xFA#8, 0x02#8] ∧
    observe (·.resend) (.cmd 0x20#8)
      { st with config := { testConfig with resendCapture := .allData }, resend := [0xFA#8] } = some [0xFA#8] ∧
    observe (·.resend) (.cmd 0x20#8) { st with config := { testConfig with resendCapture := .all } } = some [0x45#8] := by
  decide

/-- M1, M11. -/
theorem test_step_cfg_reads :
    emitted (.cmd 0x20#8) st = some [.tx .cmd [0x45#8]] ∧ emitted (.cmd 0x25#8) st = some [.tx .cmd [0x99#8]] := by decide

/-- M2, M14. -/
theorem test_step_cfg_latches :
    observe (fun t => (t.mode, t.cfgAddr)) (.cmd 0x60#8) { st with cfgAddr := 9#5 } = some (.awaitingConfigByteValue, 0#5) ∧
    observe (fun t => (t.mode, t.cfgAddr)) (.cmd 0x7F#8) st = some (.awaitingConfigByteValue, 31#5) := by decide

/-- M3, M6. -/
theorem test_step_flag_set :
    observe (·.readCfg 0#5) (.cmd 0xAD#8) st = some 0x55#8 ∧ observe (·.readCfg 0#5) (.cmd 0xA7#8) st = some 0x65#8 := by decide

/-- M5, M7: the cell is back at its reset value, so the canonical form lists nothing. -/
theorem test_step_flag_clear :
    observe (·.cfg) (.cmd 0xAE#8) { st with cfg := [(0, 0x55#8)] } = some [] ∧
    observe (·.cfg) (.cmd 0xA8#8) { st with cfg := [(0, 0x65#8)] } = some [] := by decide

/-- M9, M10. -/
theorem test_step_aux_modes :
    observe (·.mode) (.cmd 0xD3#8) st = some .echoToCaller ∧
    observe (·.mode) (.cmd 0xD4#8) st = some .forwardToSecondaryDevice := by decide

/-- M16. -/
theorem test_step_unrec :
    observe (fun t => (t.mode, t.out)) (.cmd 0xAA#8) { st with mode := .awaitingLedValue } =
      some (.awaitingLedValue, [.flush, .tx .cmd [0xFE#8]]) := by decide

/-- K3, K4. -/
theorem test_step_release :
    emitted (.key 0#8 1#8 false) { st with mode := .awaitingLedValue } = some [.tx .key [0xF0#8, 0x76#8]] ∧
    emitted (.key 0#8 1#8 false) { st with scancodeSet := 3#8 } = some [] := by decide

/-- K1, K6. -/
theorem test_step_press :
    emitted (.key 0#8 1#8 true) st = some [.tx .key [0x76#8]] ∧ emitted (.key 8#8 0#8 true) st = some [] := by decide

/-- N1, N6. -/
theorem test_step_report :
    emitted (.con []) st = some [.conValue 2#8] ∧ emitted (.con []) { st with scancodeSet := 3#8 } = some [.conValue 3#8] := by
  decide

/-- N2, N4, N8 and a non-integer argument. -/
theorem test_step_override :
    observe (·.scancodeSet) (.con [.int 1]) st = some 1#8 ∧ emitted (.con [.int 0]) st = some [.conRejected] ∧
    emitted (.con [.int 1, .int 2]) st = some [.conRejected] ∧ emitted (.con [.nonInteger]) st = some [.conRejected] := by decide

/-- The canonical form of the controller RAM: cells rise, and a cell equal to its unlisted value is removed. -/
theorem test_memory_canonical :
    memWrite testConfig [(3, 0x01#8)] 1 0x02#8 = [(1, 0x02#8), (3, 0x01#8)] ∧ memWrite testConfig [(3, 0x01#8)] 3 0x00#8 = [] ∧
    Memory.wf testConfig [(3, 0x01#8), (1, 0x02#8)] = false ∧ Memory.wf testConfig [(5, 0x99#8)] = false := by decide

/-- `withFetchWord` delivers the item of a table word to the next step. -/
theorem test_fetch_word :
    (after (step (st.withFetchWord 8 0xF2))).map (·.out) = some [.tx .data [0xFA#8, 0xAB#8, 0x83#8]] ∧
    (after (step (st.withFetchWord 8 0xD3))).map (·.mode) = some .echoToCaller := by decide

/-- P5's point in small: a flush discards what the transport has not sent, and not its own response (R49). -/
theorem test_transport_queue :
    transportQueue [.tx .key [0x76#8], .flush, .tx .data [0xFA#8], .conRejected] = [0xFA#8] := by decide

/-! ## Witnesses: the hypotheses of each statement are met, each clause at a boundary value -/

theorem witness_DataByteDecodesInTwoLevels :
    testConfig7.typematicOperand = .nextDataByte ∧ ((0xF0#8, Instr.dScanset) ∈ [(0xF0#8, Instr.dScanset)]) ∧
    (0xF1#8 ∉ [0xF0#8, 0xED#8, 0xF2#8, 0xF3#8, 0xF4#8, 0xF5#8, 0xF6#8, 0xFF#8, 0xFE#8, 0x60#8, 0x45#8]) ∧
    (0xEF#8 ∉ [0xF0#8, 0xED#8, 0xF2#8, 0xF3#8, 0xF4#8, 0xF5#8, 0xF6#8, 0xFF#8, 0xFE#8, 0x60#8, 0x45#8]) := by decide

/-- Each range of the map at its two ends, and the single codes between them, which fall in no range. -/
theorem witness_CommandByteMapAtDefaults :
    (0x21 ≤ (0x21#8).toNat ∧ (0x21#8).toNat ≤ 0x3F) ∧ (0x21 ≤ (0x3F#8).toNat ∧ (0x3F#8).toNat ≤ 0x3F) ∧
    (0x61 ≤ (0x61#8).toNat ∧ (0x61#8).toNat ≤ 0x7F) ∧ (0x61 ≤ (0x7F#8).toNat ∧ (0x7F#8).toNat ≤ 0x7F) ∧
    (0x1F#8).toNat ≤ 0x1F ∧ (0x40 ≤ (0x40#8).toNat ∧ (0x5F#8).toNat ≤ 0x5F) ∧
    (0x80 ≤ (0x80#8).toNat ∧ (0xA6#8).toNat ≤ 0xA6) ∧ (0xA9 ≤ (0xA9#8).toNat ∧ (0xAC#8).toNat ≤ 0xAC) ∧
    (0xAF ≤ (0xAF#8).toNat ∧ (0xD2#8).toNat ≤ 0xD2) ∧ 0xD5 ≤ (0xD5#8).toNat ∧
    ([0x20#8, 0x60#8, 0xA7#8, 0xA8#8, 0xAD#8, 0xAE#8, 0xD3#8, 0xD4#8].all fun b =>
      decodeCmd testConfig b != .cUnrec b) = true := by decide

theorem witness_DecodeInvertsEncode :
    testConfig.wf = true ∧ testConfig7.wf = true ∧ WellFormed testConfig (.cRdram 31#5) = true ∧
    (encode testConfig (.cRdram 31#5)).meets .echoToCaller = true ∧ WellFormed testConfig7 (.dRateValue 0xFF#8) = true ∧
    (encode testConfig7 (.dRateValue 0xFF#8)).meets .awaitingTypematicValue = true := by decide

theorem witness_EncodeInvertsDecode :
    testConfig.wf = true ∧ decode testConfig .awaitingLedValue (.cmd 0x7F#8) = .ok (.cWrram 31#5) ∧
    decode testConfig .awaitingLedValue (.data 0xFF#8) = .ok (.dLedValue 0xFF#8) := by decide

theorem witness_StepRunsDecodedItem :
    st.inbox = [] ∧ (feed [.data 0xF4#8] st).inbox = [.data 0xF4#8] ∧
    decode (feed [.data 0xF4#8] st).config (feed [.data 0xF4#8] st).mode (.data 0xF4#8) = .ok .dEnable := by decide

theorem witness_SetRateCommandBothVariants :
    st.config.typematicOperand = .commandByte ∧
    State.config { st with config := testConfig7 } = testConfig7 ∧ testConfig7.typematicOperand = .nextDataByte := by decide

theorem witness_UnsupportedDataByteRecovers :
    (0x00#8 ∉ [0xF0#8, 0xED#8, 0xF2#8, 0xF3#8, 0xF4#8, 0xF5#8, 0xF6#8, 0xFF#8, 0xFE#8, 0x60#8, 0x45#8]) ∧
    (0xFD#8 ∉ [0xF0#8, 0xED#8, 0xF2#8, 0xF3#8, 0xF4#8, 0xF5#8, 0xF6#8, 0xFF#8, 0xFE#8, 0x60#8, 0x45#8]) := by decide

theorem witness_CfgOperandStoredAtLatchedAddress : (31#5 : CfgIndex) ≠ st.cfgAddr ∧ (1#5 : CfgIndex) ≠ st.cfgAddr := by decide

theorem witness_WriteConfigLatchesZero : st.config.wf = true := by decide

theorem witness_FlagCommandsTouchOneBit :
    ((Instr.cKbddis, st.config.kbdDisBit, true) ∈ [(Instr.cKbddis, st.config.kbdDisBit, true)]) ∧ st.config.kbdDisBit = 4 ∧
    st.config.auxDisBit = 5 ∧ (0 < 8 ∧ 7 < 8) ∧ (1#5 : CfgIndex) ≠ 0#5 ∧ (31#5 : CfgIndex) ≠ 0#5 := by decide

theorem witness_AuxCommandsEnterTheirMode : st.config.wf = true := by decide

/-- The last position, the two positions just outside, the two lengths of code and both sets. -/
theorem witness_PressSendsMakeCode :
    ¬((8#8).toNat < 8 ∧ (0#8).toNat < 13) ∧ ¬((0#8).toNat < 8 ∧ (13#8).toNat < 13) ∧
    ((State.scancodeSet { st with scancodeSet := 3#8 } ≠ 1#8) ∧ State.scancodeSet { st with scancodeSet := 3#8 } ≠ 2#8) ∧
    ((7#8).toNat < 8 ∧ (12#8).toNat < 13) ∧ st.scancodeSet = 2#8 ∧ State.scancodeSet { st with scancodeSet := 1#8 } = 1#8 ∧
    st.config.set2Table[7][12] = 0#16 ∧
    (st.config.set2Table[6][0] ≠ 0#16 ∧ st.config.set2Table[6][0].toNat = 0xFF) ∧
    0x100 ≤ st.config.set1Table[2][2].toNat ∧ st.config.set1Table[2][2].toNat = 0x100 := by decide

theorem witness_ReleaseSendsBreakCode :
    ¬((255#8).toNat < 8 ∧ (255#8).toNat < 13) ∧
    (State.scancodeSet { st with scancodeSet := 0#8 } ≠ 1#8 ∧ State.scancodeSet { st with scancodeSet := 0#8 } ≠ 2#8) ∧
    ((6#8).toNat < 8 ∧ (0#8).toNat < 13) ∧ st.scancodeSet = 2#8 ∧ State.scancodeSet { st with scancodeSet := 1#8 } = 1#8 ∧
    st.config.set1Table[7][12] = 0#16 ∧ st.config.set2Table[3][3] = 0#16 ∧
    (st.config.set1Table[6][0] ≠ 0#16 ∧ st.config.set1Table[6][0].toNat < 0x100) ∧
    (st.config.set2Table[4][4] ≠ 0#16 ∧ st.config.set2Table[4][4].toNat < 0x100) ∧
    0x100 ≤ st.config.set1Table[2][2].toNat ∧ 0x100 ≤ st.config.set2Table[2][2].toNat := by decide

theorem witness_ConsoleOverrideAcceptsOneAndTwo :
    (((1 : Int), 1#8) ∈ [((1 : Int), 1#8), (2, 2#8)]) ∧ ([ConArg.int 0] ≠ [.int 1] ∧ [ConArg.int 0] ≠ [.int 2]) ∧
    ([ConArg.int 3] ≠ [.int 1] ∧ [ConArg.int 3] ≠ [.int 2]) ∧
    ([ConArg.int 1, .int 2] ≠ [.int 1] ∧ [ConArg.int 1, .int 2] ≠ [.int 2]) ∧
    [ConArg.nonInteger] ≠ [.int 1] ∧ [ConArg.nonInteger] ≠ [.int 2] := by decide

theorem witness_RateDelaysOrderedAndIndependent :
    (0x1E#8).toNat % 32 < (0x1F#8).toNat % 32 ∧ (0x80#8).toNat % 32 = (0x60#8).toNat % 32 ∧
    (0xE0#8).toNat / 32 % 4 = (0x7F#8).toNat / 32 % 4 := by decide

theorem witness_EncoderChecksInOrder :
    7 < (8#8).toNat ∧ 12 < (13#8).toNat ∧ ((7#8).toNat ≤ 7 ∧ (12#8).toNat ≤ 12) ∧ (0#8 ≠ 1#8 ∧ 0#8 ≠ 2#8) ∧
    ((7#8).toNat < 8 ∧ (12#8).toNat < 13) ∧ testConfig.set1Table[7][12] = 0#16 ∧ testConfig.set1Table[2][2] ≠ 0#16 ∧
    testConfig.set2Table[3][3] = 0#16 ∧ testConfig.set2Table[4][4] ≠ 0#16 := by decide

/-- Every length of R106: 1 and 2 on press, 1 and 2 on a Set 1 release, 2 and 3 on a Set 2 release. -/
theorem witness_EncodedLengthsBounded :
    scanEncode testConfig 6#8 0#8 true 2#8 = .ok [0xFF#8] ∧ scanEncode testConfig 2#8 2#8 true 1#8 = .ok [0x01#8, 0x00#8] ∧
    scanEncode testConfig 6#8 0#8 false 1#8 = .ok [0xFF#8] ∧ scanEncode testConfig 2#8 2#8 false 1#8 = .ok [0x01#8, 0x80#8] ∧
    scanEncode testConfig 6#8 0#8 false 2#8 = .ok [0xF0#8, 0xFF#8] ∧
    scanEncode testConfig 2#8 2#8 false 2#8 = .ok [0x01#8, 0xF0#8, 0x00#8] := by decide

theorem witness_ReleaseIsBreakTransformOfPress :
    scanEncode testConfig 1#8 2#8 true 2#8 = .ok ([0xE0#8] ++ [0x14#8]) ∧
    scanEncode testConfig 6#8 0#8 true 1#8 = .ok ([] ++ [0xFF#8]) := by decide

theorem witness_ResetMeetsInvariant : testConfig.wf = true := by decide

theorem st_inv : st.Inv where
  config_wf := by decide
  mode_legal := fun h => absurd h (by decide)
  cfg_wf := by decide
  first_delay := by decide
  inter_delay := by decide
  resend_fits := by decide
  records := fun p bytes h => absurd h (by simp [st])

/-- A state in the seventh mode. -/
def st7 : State := { st with config := testConfig7, mode := .awaitingTypematicValue }

theorem st7_inv : st7.Inv where
  config_wf := by decide
  mode_legal := fun _ => rfl
  cfg_wf := by decide
  first_delay := by decide
  inter_delay := by decide
  resend_fits := by decide
  records := fun p bytes h => absurd h (by simp [st7, st])

/-- Delivering items keeps the invariant. -/
theorem feed_inv {s : State} (h : s.Inv) (items : List Arrival) : (feed items s).Inv :=
  ⟨h.config_wf, h.mode_legal, h.cfg_wf, h.first_delay, h.inter_delay, h.resend_fits, h.records⟩

theorem witness_StepKeepsInvariant :
    (feed [.cmd 0xAD#8] st).Inv ∧ ∃ t, step (feed [.cmd 0xAD#8] st) = .next t := ⟨feed_inv st_inv _, _, rfl⟩

theorem witness_StepKeepsInvariant_seventh_mode :
    (feed [.data 0xFF#8] st7).Inv ∧ ∃ t, step (feed [.data 0xFF#8] st7) = .next t :=
  ⟨feed_inv st7_inv _, _, rfl⟩

theorem witness_RunsNeverStop : (feed [.data 0x99#8, .cmd 0x99#8, .key 255#8 255#8 true, .con []] st).Inv :=
  feed_inv st_inv _

/-- Both sides of the statement hold of this state. -/
theorem witness_StepRefusesOnlyAbsentMode :
    step (feed [.data 0x00#8] { st with mode := .awaitingTypematicValue }) = .refused .modeNotInConfiguration ∧
    st.config.typematicOperand = .commandByte := ⟨rfl, by decide⟩

/-- A state in each mode, with an item of each port, steps to a next state. -/
theorem witness_ModeTransitions :
    testConfig.wf = true ∧ State.mode { st with mode := .awaitingLedValue } ≠ .normal ∧ st.mode = .normal ∧
    (∃ t, step (feed [.data 0x00#8] { st with mode := .awaitingLedValue }) = .next t) ∧
    (∃ t, step (feed [.data 0xF0#8] st) = .next t) ∧
    (∃ t, step (feed [.data 0xF3#8] { st with config := testConfig7 }) = .next t) ∧
    (∃ t, step (feed [.cmd 0x60#8] st) = .next t) ∧ (∃ t, step (feed [.cmd 0x7F#8] st) = .next t) ∧
    (∃ t, step (feed [.key 0#8 1#8 true] st) = .next t) ∧ ∃ t, step (feed [.con []] st) = .next t :=
  ⟨by decide, by decide, by decide, ⟨_, rfl⟩, ⟨_, rfl⟩, ⟨_, rfl⟩, ⟨_, rfl⟩, ⟨_, rfl⟩, ⟨_, rfl⟩, ⟨_, rfl⟩⟩

theorem witness_ScancodeSetWriters :
    (0x03#8 ≠ st.config.scansetGet) ∧
    (∃ t, step (feed [.data 0x03#8] { st with mode := .awaitingScancodeSetValue }) = .next t ∧ t.scancodeSet ≠ st.scancodeSet) ∧
    (∃ t, step (feed [.con [.int 1]] st) = .next t ∧ t.scancodeSet ≠ st.scancodeSet) ∧
    ∃ t, step (feed [.con [.int 2]] st) = .next t :=
  ⟨by decide, ⟨_, rfl, by decide⟩, ⟨_, rfl, by decide⟩, ⟨_, rfl⟩⟩

theorem witness_EnabledWriters :
    (∃ t, step (feed [.data 0xF4#8] st) = .next t) ∧ (∃ t, step (feed [.data 0xF5#8] st) = .next t) ∧
    0x00#8 ∉ normalCodes ∧ WellFormed st.config (.cUnrec 0xFF#8) = true ∧
    (∃ t, step (feed [.cmd 0xFF#8] st) = .next t) ∧ (∃ t, step (feed [.key 0#8 1#8 true] st) = .next t) ∧
    ∃ t, step (feed [.con [.int 1]] st) = .next t :=
  ⟨⟨_, rfl⟩, ⟨_, rfl⟩, by decide, by decide, ⟨_, rfl⟩, ⟨_, rfl⟩, ⟨_, rfl⟩⟩

/-- The four alternatives of the statement, one step each. -/
theorem witness_TypematicWriters :
    (∃ t, step (feed [.data 0xF2#8] st) = .next t) ∧ (∃ t, step (feed [.data 0xF3#8] st) = .next t ∧ t.rateCode = 0xF3#8) ∧
    (∃ t, step (feed [.data 0x54#8] st7) = .next t ∧ t.rateCode = 0x54#8) ∧
    ∃ t, step (feed [.data 0xF6#8] { st with rateCode := 0x00#8 }) = .next t ∧ t.rateCode = 0x2B#8 :=
  ⟨⟨_, rfl⟩, ⟨_, rfl, by decide⟩, ⟨_, rfl, by decide⟩, ⟨_, rfl, by decide⟩⟩

theorem witness_ControllerRamWriters :
    (∃ t, step (feed [.data 0xAA#8] { st with mode := .awaitingConfigByteValue, cfgAddr := 31#5 }) = .next t ∧
      t.readCfg 31#5 ≠ st.readCfg 31#5) ∧
    ∃ t, step (feed [.cmd 0xAD#8] st) = .next t ∧ t.readCfg 0#5 ≠ st.readCfg 0#5 :=
  ⟨⟨_, rfl, by decide⟩, ⟨_, rfl, by decide⟩⟩

theorem witness_LatchedAddressWriters :
    testConfig.wf = true ∧ (∃ t, step (feed [.cmd 0x7F#8] st) = .next t ∧ t.cfgAddr ≠ st.cfgAddr) ∧
    ∃ t, step (feed [.cmd 0x60#8] { st with cfgAddr := 31#5 }) = .next t ∧ t.cfgAddr ≠ 31#5 :=
  ⟨by decide, ⟨_, rfl, by decide⟩, ⟨_, rfl, by decide⟩⟩

theorem witness_ConfigurationAndCountersConstant : ∃ t, step (feed [.data 0xFF#8] st) = .next t := ⟨_, rfl⟩

/-- No record, one record, a flush and a record, a console event. -/
theorem witness_OneRecordPerTransaction :
    (∃ t, step (feed [.data 0x45#8] st) = .next t ∧ t.out = []) ∧
    (∃ t, step (feed [.key 0#8 1#8 true] st) = .next t ∧ t.out = [.tx .key [0x76#8]]) ∧
    (∃ t, step (feed [.cmd 0x99#8] st) = .next t ∧ t.out = [.flush, .tx .cmd [0xFE#8]]) ∧
    ∃ t, step (feed [.con [.int 9]] st) = .next t ∧ t.out = [.conRejected] :=
  ⟨⟨_, rfl, by decide⟩, ⟨_, rfl, by decide⟩, ⟨_, rfl, by decide⟩, ⟨_, rfl, by decide⟩⟩

theorem witness_FlushRaisedExactlyBy :
    (∃ t, exec .dEnable st = .next t ∧ t.out = st.out ++ [.flush, .tx .data [0xFA#8]]) ∧
    ∃ t, exec .dReset st = .next t ∧ t.out = st.out ++ [.tx .data [0xFA#8, 0x11#8, 0x22#8]] :=
  ⟨⟨_, rfl, by decide⟩, ⟨_, rfl, by decide⟩⟩

theorem witness_FlushLeavesOnlyItsResponse :
    flushing .dSetdefault = true ∧ (∃ t, exec .dSetdefault st = .next t) ∧ flushing (.cUnrec 0x00#8) = true ∧
    ∃ t, exec (.cUnrec 0x00#8) st = .next t := ⟨rfl, ⟨_, rfl⟩, rfl, ⟨_, rfl⟩⟩

theorem witness_CommandsIgnoreMode : ∃ t, step (feed [.cmd 0x7F#8] st) = .next t := ⟨_, rfl⟩

theorem witness_KeyEventsReadOnlyTheSet :
    st.config = (State.config { st with enabled := true, mode := .echoToCaller, cfg := [(0, 0x55#8)] }) ∧
    st.scancodeSet = (State.scancodeSet { st with enabled := true, mode := .echoToCaller, cfg := [(0, 0x55#8)] }) ∧
    (feed [.key 0#8 1#8 true] st).inbox = [.key 0#8 1#8 true] ∧
    (feed [.key 0#8 1#8 true, .con []] { st with enabled := true }).inbox = [.key 0#8 1#8 true, .con []] :=
  ⟨rfl, rfl, rfl, rfl⟩

/-- An enable, then a key event, which does not capture, then the resend command. -/
theorem witness_ResendFidelity :
    ∃ t u : State, st.config.resendCapture = .normalModeOnly ∧ st.mode = .normal ∧ 0xF4#8 ≠ 0xFE#8 ∧
      step (feed [.data 0xF4#8, .key 0#8 1#8 true, .data 0xFE#8] st) = .next t ∧
      t.out = [.flush, .tx .data [0xFA#8]] ∧ QuietRun t u ∧ u.mode = .normal ∧ u.inbox = [.data 0xFE#8] := by
  refine ⟨_, _, rfl, rfl, by decide, rfl, by decide, .head rfl ?_ (.refl _), rfl, rfl⟩
  intro a rest h
  obtain ⟨rfl, -⟩ := List.cons.inj h
  rfl

theorem witness_ConfigWriteThenReadBack :
    testConfig.wf = true ∧
    (feed [.cmd 0x7F#8, .data 0xAA#8, .cmd 0x3F#8] st).inbox =
      .cmd (testConfig.cfgWriteBase + (31#5 : CfgIndex).setWidth 8) :: .data 0xAA#8 ::
        .cmd (testConfig.cfgReadBase + (31#5 : CfgIndex).setWidth 8) :: [] := by decide

end Sys2Proof.Tests
end

section
/-!
PROOFS. The `DATA` commands of `Normal` mode (spec/41_data_channel.md R128, R130 to R132, R138): what is decoded from their bytes,
and the state they answer.
-/

namespace Sys2Proof.Laws

theorem decode_normal_data_eq (c : Config) (b : Byte) : decode c .normal (.data b) = .ok (decodeNormal b) := rfl

/-- The default row of the `Normal` map (R63). -/
theorem decodeNormal_of_not_mem {b : Byte} (h : b ∉ normalCodes) : decodeNormal b = .dUnsup b := by
  rcases decodeNormal_cases b with hlisted | ⟨hunsup, -⟩
  · exact absurd (List.mem_map_of_mem (f := Prod.fst) hlisted) h
  · exact hunsup

end Sys2Proof.Laws

namespace Sys2Proof.Machine

theorem exec_dIdentify (s : State) : exec .dIdentify s = .next (s.respondNormal [ackByte, id0, id1]) := rfl

theorem exec_dEnable (s : State) :
    exec .dEnable s = .next ((s.setEnabled true).emitFlush.respondNormal [ackByte]) := rfl

theorem exec_dDisable (s : State) :
    exec .dDisable s = .next ((s.setEnabled false).typematicReset.emitFlush.respondNormal [ackByte]) := rfl

theorem exec_dSetdefault (s : State) :
    exec .dSetdefault s = .next (s.typematicReset.emitFlush.respondNormal [ackByte]) := rfl

theorem exec_dResend (s : State) : exec .dResend s = .next (s.emitTx .data (ackByte :: s.resend)) := rfl

theorem exec_dUnsup (b : Byte) (s : State) : exec (.dUnsup b) s = .next (s.recover.respondNormal [nakByte]) := rfl

theorem State.setEnabled_eq (e : Bool) (s : State) : s.setEnabled e = { s with enabled := e } := rfl

/-- A flush, then a response: two events in this order, and the response is captured (R48, R49, R150). -/
theorem State.respondNormal_cons_emitFlush (b : Byte) (rest : List Byte) (s : State) :
    s.emitFlush.respondNormal (b :: rest) =
      { s with resend := b :: rest, out := s.out ++ [.flush, .tx .data (b :: rest)] } := by
  simp [State.respondNormal_cons, State.emitFlush_eq]

/-- Recovery flushes last, so a response after it follows the flush (R234). -/
theorem State.respondNormal_cons_recover (b : Byte) (rest : List Byte) (s : State) :
    s.recover.respondNormal (b :: rest) = { s with
      enabled := false, rateCode := 0x2B#8, firstDelayMs := 500, interDelayMs := 91,
      resend := b :: rest, out := s.out ++ [.flush, .tx .data (b :: rest)] } := by
  simp [State.respondNormal_cons, State.recover_eq]

/-- Settles O9: the response is captured and emitted, and the operation does nothing else. -/
theorem identifyAnswersIdentityBytes : Obligations.IdentifyAnswersIdentityBytes := by
  intro s
  refine ⟨rfl, ?_⟩
  rw [exec_dIdentify, State.respondNormal_cons]
  rfl

/-- Settles O11: the flag is set whatever it was, then flush and ACK. -/
theorem enableFlushesAndAcks : Obligations.EnableFlushesAndAcks := by
  intro s
  refine ⟨rfl, ?_⟩
  rw [exec_dEnable, State.respondNormal_cons_emitFlush, State.setEnabled_eq]
  rfl

/-- Settles O12: the flag is cleared and the timing is the default one, then flush and ACK. -/
theorem disableRestoresTimingAndFlushes : Obligations.DisableRestoresTimingAndFlushes := by
  intro s
  refine ⟨rfl, ?_⟩
  rw [exec_dDisable, State.respondNormal_cons_emitFlush, State.typematicReset_eq, State.setEnabled_eq]
  rfl

/-- Settles O13: as `D.DISABLE`, without the write of `enabled`. -/
theorem setDefaultKeepsEnabled : Obligations.SetDefaultKeepsEnabled := by
  intro s
  refine ⟨rfl, ?_⟩
  rw [exec_dSetdefault, State.respondNormal_cons_emitFlush, State.typematicReset_eq]
  rfl

/-- Settles O17: the byte falls to the default row, recovery and a captured NAK follow, and the resend command replays the NAK
after its own ACK. -/
theorem unsupportedDataByteRecovers : Obligations.UnsupportedDataByteRecovers := by
  intro s b hb
  have hdecode : decode s.config .normal (.data b) = .ok (.dUnsup b) := by
    rw [Laws.decode_normal_data_eq, Laws.decodeNormal_of_not_mem hb]
  refine ⟨hdecode, _, exec_dUnsup b s, ?_, ?_⟩
  · rw [State.respondNormal_cons_recover]
    rfl
  · rw [exec_dResend, State.respondNormal_cons_recover, State.emitTx_eq]
    rfl

end Sys2Proof.Machine
end

section
/-!
PROOFS. The commands of the `CMD` channel that enter a mode (spec/42_command_channel.md R172, R177, R178): their codes decode in
every mode, because no command reads it (R170), and their empty response neither emits nor captures.
-/

namespace Sys2Proof.Machine

theorem exec_cWrcfg (s : State) :
    exec .cWrcfg s = .next { s with cfgAddr := 0#5, mode := .awaitingConfigByteValue } :=
  congrArg Host.Outcome.next (State.respondCmd_nil _)

theorem exec_cAuxecho (s : State) : exec .cAuxecho s = .next { s with mode := .echoToCaller } :=
  congrArg Host.Outcome.next (State.respondCmd_nil _)

theorem exec_cAuxsend (s : State) : exec .cAuxsend s = .next { s with mode := .forwardToSecondaryDevice } :=
  congrArg Host.Outcome.next (State.respondCmd_nil _)

/-- Settles O23: the code is its own item's round trip, and the second run overwrites two registers with what they hold. -/
theorem writeConfigLatchesZero : Obligations.WriteConfigLatchesZero := by
  intro s
  refine ⟨fun hwf m => ?_, exec_cWrcfg s, exec_cWrcfg _⟩
  exact Laws.RoundTrip.cWrcfg s.config m hwf rfl rfl

/-- Settles O26: each code is its own item's round trip, and each command writes the mode alone. -/
theorem auxCommandsEnterTheirMode : Obligations.AuxCommandsEnterTheirMode := by
  intro s
  refine ⟨fun hwf m => ⟨?_, ?_⟩, exec_cAuxecho s, exec_cAuxsend s⟩
  · exact Laws.RoundTrip.cAuxecho s.config m hwf rfl rfl
  · exact Laws.RoundTrip.cAuxsend s.config m hwf rfl rfl

end Sys2Proof.Machine
end

section
/-!
PROOFS. The typematic unit (spec/43_typematic.md R200): the three fields of a rate byte as quotients and remainders of its value,
and from them both delays of the formula.
-/

namespace Sys2Proof.Machine

theorem rateM_eq (b : Byte) : rateM b = b.toNat / 32 % 4 := by
  rw [rateM, BitVec.extractLsb'_toNat, Nat.shiftRight_eq_div_pow]

theorem rateB_eq (b : Byte) : rateB b = b.toNat / 8 % 4 := by
  rw [rateB, BitVec.extractLsb'_toNat, Nat.shiftRight_eq_div_pow]

theorem rateD_eq (b : Byte) : rateD b = b.toNat % 8 := by
  rw [rateD, BitVec.extractLsb'_toNat, Nat.shiftRight_zero]

theorem rateFirstDelay_eq (b : Byte) : rateFirstDelay b = (b.toNat / 32 % 4 + 1) * 250 := by
  rw [rateFirstDelay, rateM_eq]

/-- The product is divided once, as a whole, so nothing is truncated before the end (R200). -/
theorem rateInterDelay_eq (b : Byte) :
    rateInterDelay b = 1000 * 2 ^ (b.toNat / 8 % 4) * (b.toNat % 8 + 8) / 240 := by
  rw [rateInterDelay, rateB_eq, rateD_eq]

/-- Settles O32: `set_rate` writes the byte and the two delays, which are the formula's. -/
theorem setRateFollowsFormula : Obligations.SetRateFollowsFormula := by
  intro s b
  rw [State.setRate_eq, rateFirstDelay_eq, rateInterDelay_eq]

end Sys2Proof.Machine
end

section
/-!
PROOFS. The events of the keyboard matrix and the console request without argument (spec/44_event_entry_and_console.md R215 to
R217, R220): a key transition drops every encoder error and emits every other result as one record.
-/

namespace Sys2Proof.Machine

theorem exec_kPress (row col : Byte) (s : State) :
    exec (.kPress row col) s = .next (s.keyTransition row col true) := rfl

theorem exec_kRelease (row col : Byte) (s : State) :
    exec (.kRelease row col) s = .next (s.keyTransition row col false) := rfl

theorem exec_nReport (s : State) : exec .nReport s = .next (s.emit [.conValue s.scancodeSet]) := rfl

/-! ## The bytes of a make code -/

theorem makeLow_eq (m : MakeCode) : makeLow m = m.setWidth 8 := rfl

theorem makeHigh_eq (m : MakeCode) : makeHigh m = (m >>> 8).setWidth 8 := rfl

theorem makeBytes_of_lt {m : MakeCode} (h : m.toNat < 0x100) : makeBytes m = [m.setWidth 8] := by
  rw [makeBytes, if_neg (Nat.not_le_of_lt h), makeLow_eq]

theorem makeBytes_of_le {m : MakeCode} (h : 0x100 ≤ m.toNat) :
    makeBytes m = [(m >>> 8).setWidth 8, m.setWidth 8] := by
  rw [makeBytes, if_pos h, makeHigh_eq, makeLow_eq]

theorem makeCode_ne_zero_of_le {m : MakeCode} (h : 0x100 ≤ m.toNat) : m ≠ 0#16 := by
  rintro rfl
  exact absurd h (by decide)

theorem breakBytes_set1_single (b : Byte) : breakBytes 1#8 [b] = [b ||| 0x80#8] := rfl

theorem breakBytes_set1_pair (a b : Byte) : breakBytes 1#8 [a, b] = [a, b ||| 0x80#8] := rfl

theorem breakBytes_set2_single (b : Byte) : breakBytes 2#8 [b] = [0xF0#8, b] := rfl

theorem breakBytes_set2_pair (a b : Byte) : breakBytes 2#8 [a, b] = [a, 0xF0#8, b] := rfl

/-! ## The table of a set -/

theorem scanTable_set1 (c : Config) : scanTable c 1#8 = some c.set1Table := rfl

theorem scanTable_set2 (c : Config) : scanTable c 2#8 = some c.set2Table := rfl

theorem scanTable_unsupported (c : Config) {set : Byte} (h : set ≠ 1#8 ∧ set ≠ 2#8) : scanTable c set = none := by
  rw [scanTable, if_neg h.1, if_neg h.2]

/-- No position outside the geometry and no unsupported set encodes (R101, R102). -/
theorem scanEncode_error_of_outside (c : Config) {row col set : Byte} (pressed : Bool)
    (h : ¬(row.toNat < 8 ∧ col.toNat < 13) ∨ (set ≠ 1#8 ∧ set ≠ 2#8)) :
    ∃ e, scanEncode c row col pressed set = .error e := by
  by_cases hin : row.toNat ≤ 7 ∧ col.toNat ≤ 12
  · have hset : set ≠ 1#8 ∧ set ≠ 2#8 := h.resolve_left (fun hout => hout (by omega))
    exact ⟨_, scanEncode_unsupportedSet hin (scanTable_unsupported c hset) pressed⟩
  · exact ⟨_, scanEncode_outOfRange hin c pressed set⟩

/-! ## A key transition -/

theorem State.keyTransition_of_error {s : State} {row col : Byte} {pressed : Bool} {e : EncodeError}
    (h : scanEncode s.config row col pressed s.scancodeSet = .error e) : s.keyTransition row col pressed = s := by
  rw [State.keyTransition_eq, h, keyBytes_error, txEvents_nil, List.append_nil]

theorem State.keyTransition_of_ok {s : State} {row col : Byte} {pressed : Bool} {bytes : List Byte}
    (h : scanEncode s.config row col pressed s.scancodeSet = .ok bytes) (hne : bytes ≠ []) :
    s.keyTransition row col pressed = { s with out := s.out ++ [.tx .key bytes] } := by
  rw [State.keyTransition_eq, h, keyBytes_ok, txEvents_of_ne_nil _ hne]

theorem State.keyTransition_of_outside {s : State} {row col : Byte} (pressed : Bool)
    (h : ¬(row.toNat < 8 ∧ col.toNat < 13) ∨ (s.scancodeSet ≠ 1#8 ∧ s.scancodeSet ≠ 2#8)) :
    s.keyTransition row col pressed = s := by
  obtain ⟨e, he⟩ := scanEncode_error_of_outside s.config pressed h
  exact State.keyTransition_of_error he

section
variable {s : State} {row col set : Byte} {t : MakeTable} (hr : row.toNat < 8) (hc : col.toNat < 13)
  (hset : s.scancodeSet = set) (ht : scanTable s.config set = some t)
include hset ht

theorem State.keyTransition_of_unmapped (pressed : Bool) (hm : (t[row.toNat]'hr)[col.toNat]'hc = 0#16) :
    s.keyTransition row col pressed = s := by
  subst hset
  exact State.keyTransition_of_error ((scanEncode_inRange hr hc ht pressed).trans (if_pos hm))

theorem State.keyTransition_press (hm : (t[row.toNat]'hr)[col.toNat]'hc ≠ 0#16) :
    s.keyTransition row col true =
      { s with out := s.out ++ [.tx .key (makeBytes ((t[row.toNat]'hr)[col.toNat]'hc))] } := by
  subst hset
  exact State.keyTransition_of_ok ((scanEncode_inRange hr hc ht true).trans (if_neg hm)) (makeBytes_ne_nil _)

theorem State.keyTransition_release (hm : (t[row.toNat]'hr)[col.toNat]'hc ≠ 0#16) :
    s.keyTransition row col false =
      { s with out := s.out ++ [.tx .key (breakBytes set (makeBytes ((t[row.toNat]'hr)[col.toNat]'hc)))] } := by
  subst hset
  exact State.keyTransition_of_ok ((scanEncode_inRange hr hc ht false).trans (if_neg hm)) (breakBytes_ne_nil _ _)

/-- A release in a supported set, by the length of the make code, before the set's own transform is computed. -/
theorem exec_kRelease_inRange :
    let m := (t[row.toNat]'hr)[col.toNat]'hc
    (m = 0#16 → exec (.kRelease row col) s = .next s) ∧
    (m ≠ 0#16 ∧ m.toNat < 0x100 → exec (.kRelease row col) s = .next { s with
      out := s.out ++ [.tx .key (breakBytes set [m.setWidth 8])] }) ∧
    (0x100 ≤ m.toNat → exec (.kRelease row col) s = .next { s with
      out := s.out ++ [.tx .key (breakBytes set [(m >>> 8).setWidth 8, m.setWidth 8])] }) := by
  refine ⟨fun hzero => ?_, fun ⟨hne, hlow⟩ => ?_, fun hhigh => ?_⟩
  · rw [exec_kRelease, State.keyTransition_of_unmapped hr hc hset ht false hzero]
  · rw [exec_kRelease, State.keyTransition_release hr hc hset ht hne, makeBytes_of_lt hlow]
  · rw [exec_kRelease, State.keyTransition_release hr hc hset ht (makeCode_ne_zero_of_le hhigh), makeBytes_of_le hhigh]

end

/-! ## The obligations -/

/-- Settles O28: an error sends nothing, and a mapped entry sends its make bytes. -/
theorem pressSendsMakeCode : Obligations.PressSendsMakeCode := by
  intro s row col
  refine ⟨fun hout => ?_, fun hr hc t hsel => ?_⟩
  · rw [exec_kPress, State.keyTransition_of_outside true hout]
  have ht : scanTable s.config s.scancodeSet = some t := by
    rcases hsel with ⟨hset, rfl⟩ | ⟨hset, rfl⟩
    · rw [hset, scanTable_set1]
    · rw [hset, scanTable_set2]
  refine ⟨fun hzero => ?_, fun ⟨hne, hlow⟩ => ?_, fun hhigh => ?_⟩
  · rw [exec_kPress, State.keyTransition_of_unmapped hr hc rfl ht true hzero]
  · rw [exec_kPress, State.keyTransition_press hr hc rfl ht hne, makeBytes_of_lt hlow]
  · rw [exec_kPress, State.keyTransition_press hr hc rfl ht (makeCode_ne_zero_of_le hhigh), makeBytes_of_le hhigh]

/-- Settles O29: an error sends nothing, and a mapped entry sends its make bytes under the break transform of the set. -/
theorem releaseSendsBreakCode : Obligations.ReleaseSendsBreakCode := by
  intro s row col
  refine ⟨fun hout => ?_, fun hr hc => ⟨fun hset => ?_, fun hset => ?_⟩⟩
  · rw [exec_kRelease, State.keyTransition_of_outside false hout]
  · have h := exec_kRelease_inRange hr hc hset (scanTable_set1 s.config)
    simpa only [breakBytes_set1_single, breakBytes_set1_pair] using h
  · have h := exec_kRelease_inRange hr hc hset (scanTable_set2 s.config)
    simpa only [breakBytes_set2_single, breakBytes_set2_pair] using h

/-- Settles O30: decoding a console request reads neither configuration nor mode, and the one event holds the register byte. -/
theorem consoleReportPrintsSet : Obligations.ConsoleReportPrintsSet := by
  intro s
  exact ⟨rfl, exec_nReport s⟩

end Sys2Proof.Machine
end

section
/-!
PROOFS. The decoders and the encoder, both ways (spec/30_encoding.md R62 to R65, R69, R72): every decoded transaction is well
formed and is encoded by the item it was decoded from, and every well-formed transaction is decoded from the item that encodes it.
-/

namespace Sys2Proof.Laws

open Sys2Proof.Machine

/-! ## `CMD` bytes -/

theorem windowHolds_iff {base b : Byte} :
    windowHolds base b = true ↔ base.toNat ≤ b.toNat ∧ b.toNat ≤ base.toNat + 31 := by
  simp [windowHolds]

/-- A code of a window is its base plus the index decoded from it (R71 a). -/
theorem add_windowIndex {base b : Byte} (h : windowHolds base b = true) :
    base + (windowIndex base b).setWidth 8 = b := by
  obtain ⟨hlo, hhi⟩ := windowHolds_iff.mp h
  apply BitVec.eq_of_toNat_eq
  have hb := b.isLt
  simp only [windowIndex, BitVec.toNat_add, BitVec.toNat_setWidth, BitVec.toNat_sub]
  omega

/-- A byte that is no single code is decoded by its window, in the words of `windowHolds`. -/
theorem decodeCmd_of_not_mem {c : Config} {b : Byte} (h : b ∉ c.singleCodes) :
    decodeCmd c b =
      if windowHolds c.cfgReadBase b = true then .cRdram (windowIndex c.cfgReadBase b)
      else if windowHolds c.cfgWriteBase b = true then .cWrram (windowIndex c.cfgWriteBase b)
      else .cUnrec b := by
  simp only [decodeCmd_of_not_single (by simpa using h), windowHolds_iff]

/-- The eight single codes with their commands (R65). -/
def singleCommands (c : Config) : List (Byte × Instr) :=
  [(c.cmdReadCfg, .cRdcfg), (c.cmdWriteCfg, .cWrcfg), (c.cmdKbdDis, .cKbddis), (c.cmdKbdEn, .cKbden),
    (c.cmdAuxDis, .cAuxdis), (c.cmdAuxEn, .cAuxen), (c.cmdAuxEcho, .cAuxecho), (c.cmdAuxSend, .cAuxsend)]

/-- A single code decodes to its command, whatever the windows are: the decoder compares with the single codes first. -/
theorem decodeCmd_mem_singleCommands {c : Config} {b : Byte} (h : b ∈ c.singleCodes) :
    (b, decodeCmd c b) ∈ singleCommands c := by
  simp only [Config.singleCodes, List.mem_cons, List.not_mem_nil, or_false] at h
  unfold decodeCmd singleCommands
  repeat' refine iteInduction (motive := fun i => (b, i) ∈ _) (fun _ => ?_) (fun _ => ?_)
  all_goals simp_all

/-- A `CMD` byte is one of the eight single codes with its command, or a code of a window that is no single code, or
unrecognised (R65). -/
theorem decodeCmd_cases (c : Config) (b : Byte) :
    (b, decodeCmd c b) ∈ singleCommands c ∨
    b ∉ c.singleCodes ∧
      ((windowHolds c.cfgReadBase b = true ∧ decodeCmd c b = .cRdram (windowIndex c.cfgReadBase b)) ∨
        (windowHolds c.cfgWriteBase b = true ∧ decodeCmd c b = .cWrram (windowIndex c.cfgWriteBase b)) ∨
        (WellFormed c (.cUnrec b) = true ∧ decodeCmd c b = .cUnrec b)) := by
  by_cases hs : b ∈ c.singleCodes
  · exact .inl (decodeCmd_mem_singleCommands hs)
  refine .inr ⟨hs, ?_⟩
  rw [decodeCmd_of_not_mem hs]
  by_cases hr : windowHolds c.cfgReadBase b = true
  · exact .inl ⟨hr, if_pos hr⟩
  by_cases hw : windowHolds c.cfgWriteBase b = true
  · exact .inr (.inl ⟨hw, by rw [if_neg hr, if_pos hw]⟩)
  · exact .inr (.inr ⟨by simp [WellFormed, hs, hr, hw], by rw [if_neg hr, if_neg hw]⟩)

theorem decodeCmd_wellFormed (c : Config) (b : Byte) :
    WellFormed c (decodeCmd c b) = true ∧ encode c (decodeCmd c b) = onCmd b := by
  rcases decodeCmd_cases c b with h | ⟨hs, ⟨hw, h⟩ | ⟨hw, h⟩ | ⟨hw, h⟩⟩
  · simp only [singleCommands, List.mem_cons, Prod.mk.injEq, List.not_mem_nil, or_false] at h
    rcases h with ⟨rfl, h⟩ | ⟨rfl, h⟩ | ⟨rfl, h⟩ | ⟨rfl, h⟩ | ⟨rfl, h⟩ | ⟨rfl, h⟩ | ⟨rfl, h⟩ | ⟨rfl, h⟩ <;>
      rw [h] <;> exact ⟨rfl, rfl⟩
  · rw [h]
    simp [WellFormed, encode, add_windowIndex hw, hs]
  · rw [h]
    simp [WellFormed, encode, add_windowIndex hw, hs]
  · rw [h]
    exact ⟨hw, rfl⟩

/-- The default row of the `CMD` map (R65, R182). -/
theorem decodeCmd_eq_cUnrec_iff {c : Config} {b b' : Byte} :
    decodeCmd c b = .cUnrec b' ↔ WellFormed c (.cUnrec b) = true ∧ b' = b := by
  constructor
  · intro h
    obtain ⟨hw, he⟩ := decodeCmd_wellFormed c b
    rw [h] at hw he
    obtain rfl : b' = b := by simpa [encode, onCmd] using he
    exact ⟨hw, rfl⟩
  · rintro ⟨hw, rfl⟩
    simp only [WellFormed, Bool.and_eq_true, Bool.not_eq_true', List.contains_eq_mem, decide_eq_false_iff_not] at hw
    obtain ⟨⟨hs, hr⟩, hw⟩ := hw
    simp [decodeCmd_of_not_mem hs, hr, hw]

/-! ## `DATA` bytes -/

theorem decodeNormal_wellFormed (c : Config) (b : Byte) :
    WellFormed c (decodeNormal b) = true ∧ encode c (decodeNormal b) = onData .normal b := by
  rcases decodeNormal_cases b with h | ⟨h, hn⟩
  · simp only [List.mem_cons, Prod.mk.injEq, List.not_mem_nil, or_false] at h
    rcases h with ⟨rfl, h⟩ | ⟨rfl, h⟩ | ⟨rfl, h⟩ | ⟨rfl, h⟩ | ⟨rfl, h⟩ | ⟨rfl, h⟩ | ⟨rfl, h⟩ | ⟨rfl, h⟩ | ⟨rfl, h⟩ |
      ⟨rfl, h⟩ | ⟨rfl, h⟩ <;> rw [h] <;> exact ⟨rfl, rfl⟩
  · rw [h]
    exact ⟨by simpa [WellFormed] using hn, rfl⟩

/-- A `DATA` byte decodes to a well-formed transaction of its own mode, with itself as the code (R62). -/
theorem decodeData_wellFormed {c : Config} {m : Mode} {b : Byte} {i : Instr} (h : decodeData c m b = .ok i) :
    WellFormed c i = true ∧ encode c i = onData m b := by
  cases m with
  | normal =>
    obtain rfl : decodeNormal b = i := by simpa [decodeData] using h
    exact decodeNormal_wellFormed c b
  | awaitingScancodeSetValue =>
    by_cases hget : b = c.scansetGet
    · obtain rfl : Instr.dScansetGet = i := by simpa [decodeData, hget] using h
      exact ⟨rfl, by rw [hget]; rfl⟩
    · obtain rfl : Instr.dScansetSet b = i := by simpa [decodeData, hget] using h
      exact ⟨by simpa [WellFormed] using hget, rfl⟩
  | awaitingTypematicValue =>
    by_cases hop : c.typematicOperand = .nextDataByte
    · obtain rfl : Instr.dRateValue b = i := by simpa [decodeData, hop] using h
      exact ⟨by simpa [WellFormed] using hop, rfl⟩
    · simp [decodeData, hop] at h
  | awaitingLedValue | awaitingConfigByteValue | echoToCaller | forwardToSecondaryDevice =>
    injection h with h
    subst h
    exact ⟨rfl, rfl⟩

/-! ## Every port -/

/-- Whatever an item decodes to is well formed and is encoded by that very item, in any configuration. -/
theorem decode_wellFormed {c : Config} {m : Mode} {a : Arrival} {i : Instr} (h : decode c m a = .ok i) :
    WellFormed c i = true ∧ (encode c i).arrival = a ∧ (encode c i).meets m = true := by
  cases a with
  | data b =>
    obtain ⟨hw, he⟩ := decodeData_wellFormed h
    exact ⟨hw, by rw [he]; rfl, by simp [he, onData, Encoded.meets]⟩
  | cmd b =>
    obtain rfl := decode_cmd h
    obtain ⟨hw, he⟩ := decodeCmd_wellFormed c b
    exact ⟨hw, by rw [he]; rfl, by rw [he]; rfl⟩
  | key row col pressed =>
    injection h with h
    subst h
    cases pressed <;> exact ⟨rfl, rfl, rfl⟩
  | con args =>
    injection h with h
    subst h
    cases args <;> exact ⟨rfl, rfl, rfl⟩

/-- Settles O4: the round trip of each instruction. -/
theorem decodeInvertsEncode : Obligations.DecodeInvertsEncode := by
  intro c i m
  cases i with
  | dScanset => exact RoundTrip.dScanset c m
  | dSetleds => exact RoundTrip.dSetleds c m
  | dIdentify => exact RoundTrip.dIdentify c m
  | dSetrate => exact RoundTrip.dSetrate c m
  | dEnable => exact RoundTrip.dEnable c m
  | dDisable => exact RoundTrip.dDisable c m
  | dSetdefault => exact RoundTrip.dSetdefault c m
  | dReset => exact RoundTrip.dReset c m
  | dResend => exact RoundTrip.dResend c m
  | dQuirk60 => exact RoundTrip.dQuirk60 c m
  | dQuirk45 => exact RoundTrip.dQuirk45 c m
  | dUnsup b => exact RoundTrip.dUnsup b c m
  | dScansetGet => exact RoundTrip.dScansetGet c m
  | dScansetSet b => exact RoundTrip.dScansetSet b c m
  | dLedValue b => exact RoundTrip.dLedValue b c m
  | dCfgValue b => exact RoundTrip.dCfgValue b c m
  | dEchoValue b => exact RoundTrip.dEchoValue b c m
  | dAuxValue b => exact RoundTrip.dAuxValue b c m
  | dRateValue b => exact RoundTrip.dRateValue b c m
  | cRdcfg => exact RoundTrip.cRdcfg c m
  | cWrcfg => exact RoundTrip.cWrcfg c m
  | cKbddis => exact RoundTrip.cKbddis c m
  | cKbden => exact RoundTrip.cKbden c m
  | cAuxdis => exact RoundTrip.cAuxdis c m
  | cAuxen => exact RoundTrip.cAuxen c m
  | cAuxecho => exact RoundTrip.cAuxecho c m
  | cAuxsend => exact RoundTrip.cAuxsend c m
  | cRdram k => exact RoundTrip.cRdram k c m
  | cWrram k => exact RoundTrip.cWrram k c m
  | cUnrec b => exact RoundTrip.cUnrec b c m
  | kPress row col => exact RoundTrip.kPress row col c m
  | kRelease row col => exact RoundTrip.kRelease row col c m
  | nReport => exact RoundTrip.nReport c m
  | nOverride args => exact RoundTrip.nOverride args c m

/-- Settles O5: the inversion of the decoder, which needs no premise on the configuration. -/
theorem encodeInvertsDecode : Obligations.EncodeInvertsDecode := by
  intro c m a i _ h
  exact decode_wellFormed h

end Sys2Proof.Laws
end

section
/-!
PROOFS. What a transaction writes, register by register: the table of `exec` read by columns. `exec_eq` ties the columns to the
model; after it no proof about what a transaction writes looks at the meanings again.
-/

namespace Sys2Proof.Machine

/-! ## The columns -/

/-- `mode` after a transaction (R12). -/
def modeAfter (c : Config) (m : Mode) : Instr → Mode
  | .dScanset => .awaitingScancodeSetValue
  | .dSetleds => .awaitingLedValue
  | .dSetrate => if c.typematicOperand = .nextDataByte then .awaitingTypematicValue else m
  | .dScansetGet | .dScansetSet _ | .dLedValue _ | .dCfgValue _ | .dEchoValue _ | .dAuxValue _ | .dRateValue _ => .normal
  | .cWrcfg | .cWrram _ => .awaitingConfigByteValue
  | .cAuxecho => .echoToCaller
  | .cAuxsend => .forwardToSecondaryDevice
  | .dIdentify | .dEnable | .dDisable | .dSetdefault | .dReset | .dResend | .dQuirk60 | .dQuirk45 | .dUnsup _
  | .cRdcfg | .cKbddis | .cKbden | .cAuxdis | .cAuxen | .cRdram _ | .cUnrec _
  | .kPress _ _ | .kRelease _ _ | .nReport | .nOverride _ => m

/-- `scancode_set` after a transaction (R14). -/
def scancodeSetAfter (set : Byte) : Instr → Byte
  | .dScansetSet b => b
  | .nOverride args => (overrideSet args).getD set
  | _ => set

/-- `enabled` after a transaction (R15). -/
def enabledAfter (e : Bool) : Instr → Bool
  | .dEnable => true
  | .dDisable | .dReset | .dUnsup _ | .cUnrec _ => false
  | _ => e

/-- The controller RAM after a transaction (R17, R47). -/
def cfgAfter (s : State) : Instr → List Host.Cell
  | .dCfgValue b => (s.writeCfg s.cfgAddr b).cfg
  | .cKbddis => (s.writeCfg 0#5 (setFlag (s.readCfg 0#5) s.config.kbdDisBit)).cfg
  | .cKbden => (s.writeCfg 0#5 (clearFlag (s.readCfg 0#5) s.config.kbdDisBit)).cfg
  | .cAuxdis => (s.writeCfg 0#5 (setFlag (s.readCfg 0#5) s.config.auxDisBit)).cfg
  | .cAuxen => (s.writeCfg 0#5 (clearFlag (s.readCfg 0#5) s.config.auxDisBit)).cfg
  | _ => s.cfg

/-- `cfg_addr` after a transaction (R20). -/
def cfgAddrAfter (addr : CfgIndex) : Instr → CfgIndex
  | .cWrcfg => 0#5
  | .cWrram i => i
  | _ => addr

/-- The three typematic registers after a transaction (R203, R204). -/
def timingAfter (c : Config) (old : Byte × Nat × Nat) : Instr → Byte × Nat × Nat
  | .dSetrate =>
    if c.typematicOperand = .nextDataByte then old else (0xF3#8, rateFirstDelay 0xF3#8, rateInterDelay 0xF3#8)
  | .dRateValue b => (b, rateFirstDelay b, rateInterDelay b)
  | .dDisable | .dSetdefault | .dUnsup _ | .cUnrec _ => (0x2B#8, 500, 91)
  | _ => old

/-- The bytes of a transaction's record on `TX`; none for a transaction without one (R48). -/
def response (s : State) : Instr → List Byte
  | .dScanset | .dSetleds | .dSetrate | .dEnable | .dDisable | .dSetdefault => [ackByte]
  | .dIdentify => [ackByte, id0, id1]
  | .dReset => [ackByte, s.config.selftestPass0, s.config.selftestPass1]
  | .dResend => ackByte :: s.resend
  | .dUnsup _ | .cUnrec _ => [nakByte]
  | .dScansetGet => [ackByte, s.scancodeSet]
  | .dScansetSet _ | .dLedValue _ | .dCfgValue _ | .dRateValue _ => [ackByte]
  | .dEchoValue b => [b]
  | .cRdcfg => [s.readCfg 0#5]
  | .cRdram i => [s.readCfg i]
  | .kPress row col => keyBytes (scanEncode s.config row col true s.scancodeSet)
  | .kRelease row col => keyBytes (scanEncode s.config row col false s.scancodeSet)
  | .dQuirk60 | .dQuirk45 | .dAuxValue _ => []
  | .cWrcfg | .cKbddis | .cKbden | .cAuxdis | .cAuxen | .cAuxecho | .cAuxsend | .cWrram _ => []
  | .nReport | .nOverride _ => []

/-- What a transaction prints on the console (R219). -/
def consoleEvents (s : State) : Instr → List Output
  | .nReport => [.conValue s.scancodeSet]
  | .nOverride args =>
    match overrideSet args with
    | some set => overrideEvents s.config set
    | none => [.conRejected]
  | _ => []

/-- The port of a transaction: the one its item arrives on. -/
def portOf (c : Config) (i : Instr) : Port := (encode c i).arrival.port

/-- The events a transaction appends: its flush, its record, its console output (R48, R49). -/
def eventsOf (s : State) (i : Instr) : List Output :=
  (if flushing i then [.flush] else []) ++ (consoleEvents s i ++ txEvents (portOf s.config i) (response s i))

/-- Is a transaction's response one that `RESEND_CAPTURE` captures (R150)? The resend command's own is not (R134). -/
def captures (r : ResendCapture) : Instr → Bool
  | .dResend => false
  | .dScansetGet | .dScansetSet _ | .dLedValue _ | .dCfgValue _ | .dEchoValue _ | .dAuxValue _ | .dRateValue _ =>
    capturesOperands r
  | .cRdcfg | .cWrcfg | .cKbddis | .cKbden | .cAuxdis | .cAuxen | .cAuxecho | .cAuxsend | .cRdram _ | .cWrram _
  | .cUnrec _ => capturesCommands r
  | .kPress _ _ | .kRelease _ _ | .nReport | .nOverride _ => false
  | .dScanset | .dSetleds | .dIdentify | .dSetrate | .dEnable | .dDisable | .dSetdefault | .dReset | .dQuirk60
  | .dQuirk45 | .dUnsup _ => true

/-- The ResendBuffer after a transaction: a captured response, unless it is empty (R150). -/
def resendAfter (s : State) (i : Instr) : List Byte :=
  if captures s.config.resendCapture i && !(response s i).isEmpty then response s i else s.resend

/-- The state after a transaction, all columns together. -/
def effect (i : Instr) (s : State) : State where
  config := s.config
  inbox := s.inbox
  mode := modeAfter s.config s.mode i
  scancodeSet := scancodeSetAfter s.scancodeSet i
  enabled := enabledAfter s.enabled i
  cfg := cfgAfter s i
  cfgAddr := cfgAddrAfter s.cfgAddr i
  rateCode := (timingAfter s.config (s.rateCode, s.firstDelayMs, s.interDelayMs) i).1
  firstDelayMs := (timingAfter s.config (s.rateCode, s.firstDelayMs, s.interDelayMs) i).2.1
  interDelayMs := (timingAfter s.config (s.rateCode, s.firstDelayMs, s.interDelayMs) i).2.2
  firstCounter := s.firstCounter
  interCounter := s.interCounter
  resend := resendAfter s i
  out := s.out ++ eventsOf s i

/-- Recovery flushes last, so a `CMD` response after it follows the flush (R234). -/
theorem State.respondCmd_cons_recover (b : Byte) (rest : List Byte) (s : State) :
    s.recover.respondCmd (b :: rest) = { s with
      enabled := false, rateCode := 0x2B#8, firstDelayMs := 500, interDelayMs := 91,
      resend := if capturesCommands s.config.resendCapture then b :: rest else s.resend,
      out := s.out ++ [.flush, .tx .cmd (b :: rest)] } := by
  simp [State.respondCmd_cons, State.recover_eq]

theorem exec_cUnrec (b : Byte) (s : State) : exec (.cUnrec b) s = .next (s.recover.respondCmd [nakByte]) := rfl

theorem exec_dSetrate_commandByte {s : State} (h : s.config.typematicOperand = .commandByte) :
    exec .dSetrate s = .next ((s.setRate 0xF3#8).respondNormal [ackByte]) := by
  simp only [exec, execDSetrate, h]

theorem exec_dSetrate_nextDataByte {s : State} (h : s.config.typematicOperand = .nextDataByte) :
    exec .dSetrate s = .next ((s.setMode .awaitingTypematicValue).respondNormal [ackByte]) := by
  simp only [exec, execDSetrate, h]

theorem exec_nOverride_accepted {args : List ConArg} {set : Byte} (h : overrideSet args = some set) (s : State) :
    exec (.nOverride args) s = .next ((s.setScancodeSet set).emit (overrideEvents s.config set)) := by
  simp only [exec, execNOverride, h]

theorem exec_nOverride_rejected {args : List ConArg} (h : overrideSet args = none) (s : State) :
    exec (.nOverride args) s = .next (s.emit [.conRejected]) := by
  simp only [exec, execNOverride, h]

/-- Every transaction answers a next state (R235), and that state is the columns' one. -/
theorem exec_eq (i : Instr) (s : State) : exec i s = .next (effect i s) := by
  cases i with
  | dEnable => rw [exec_dEnable, State.respondNormal_cons_emitFlush]; rfl
  | dDisable => rw [exec_dDisable, State.respondNormal_cons_emitFlush]; rfl
  | dSetdefault => rw [exec_dSetdefault, State.respondNormal_cons_emitFlush]; rfl
  | dUnsup b => rw [exec_dUnsup, State.respondNormal_cons_recover]; rfl
  | cUnrec b =>
    have hresend : resendAfter s (.cUnrec b) =
        if capturesCommands s.config.resendCapture then [nakByte] else s.resend := by
      simp [resendAfter, captures, response]
    rw [exec_cUnrec, State.respondCmd_cons_recover, effect, hresend]
    rfl
  | dSetrate =>
    cases h : s.config.typematicOperand with
    | commandByte =>
      have hmode : modeAfter s.config s.mode .dSetrate = s.mode := if_neg (by simp [h])
      have htiming (old) : timingAfter s.config old .dSetrate = (0xF3#8, rateFirstDelay 0xF3#8, rateInterDelay 0xF3#8) :=
        if_neg (by simp [h])
      rw [exec_dSetrate_commandByte h, effect, hmode, htiming]
      rfl
    | nextDataByte =>
      have hmode : modeAfter s.config s.mode .dSetrate = .awaitingTypematicValue := if_pos h
      have htiming (old) : timingAfter s.config old .dSetrate = old := if_pos h
      rw [exec_dSetrate_nextDataByte h, effect, hmode, htiming]
      rfl
  | nOverride args =>
    cases h : overrideSet args with
    | some set =>
      have hset : scancodeSetAfter s.scancodeSet (.nOverride args) = set := by simp [scancodeSetAfter, h]
      have hout : eventsOf s (.nOverride args) = overrideEvents s.config set := by
        simp [eventsOf, flushing, consoleEvents, response, h]
      rw [exec_nOverride_accepted h, effect, hset, hout]
      rfl
    | none =>
      have hset : scancodeSetAfter s.scancodeSet (.nOverride args) = s.scancodeSet := by simp [scancodeSetAfter, h]
      have hout : eventsOf s (.nOverride args) = [.conRejected] := by
        simp [eventsOf, flushing, consoleEvents, response, h]
      rw [exec_nOverride_rejected h, effect, hset, hout]
      rfl
  | _ => rfl

theorem exec_next_iff {i : Instr} {s t : State} : exec i s = .next t ↔ t = effect i s := by
  rw [exec_eq, Host.Outcome.next.injEq, eq_comm]

/-! ## The columns of `effect` -/

section
variable (i : Instr) (s : State)

@[simp] theorem effect_mode : (effect i s).mode = modeAfter s.config s.mode i := rfl
@[simp] theorem effect_enabled : (effect i s).enabled = enabledAfter s.enabled i := rfl
@[simp] theorem effect_resend : (effect i s).resend = resendAfter s i := rfl
@[simp] theorem effect_out : (effect i s).out = s.out ++ eventsOf s i := rfl

theorem effect_timing :
    ((effect i s).rateCode, (effect i s).firstDelayMs, (effect i s).interDelayMs) =
      timingAfter s.config (s.rateCode, s.firstDelayMs, s.interDelayMs) i := rfl

end

/-! ## One step of an item -/

/-- The step of an item: it decodes, and the state without it takes the transaction's effect. -/
theorem step_cons {s t : State} {a : Arrival} {rest : List Arrival} (hbox : s.inbox = a :: rest) (h : step s = .next t) :
    ∃ i, decode s.config s.mode a = .ok i ∧ t = effect i (s.setInbox rest) := by
  cases hd : decode s.config s.mode a with
  | error e => rw [step_of_decode_error hbox hd] at h; exact absurd h (by simp)
  | ok i =>
    rw [step_of_decode_ok hbox hd] at h
    exact ⟨i, rfl, exec_next_iff.mp h⟩

/-- A step waits or is the step of an item. -/
theorem step_next {s t : State} (h : step s = .next t) :
    t = s ∨ ∃ a rest i, s.inbox = a :: rest ∧ decode s.config s.mode a = .ok i ∧ t = effect i (s.setInbox rest) := by
  rcases step_next_cases h with ⟨-, hwait⟩ | ⟨a, rest, i, hbox, hd, hexec⟩
  · exact .inl hwait
  · exact .inr ⟨a, rest, i, hbox, hd, exec_next_iff.mp hexec⟩

/-! ## Events -/

theorem portOf_ne_con_or_response_eq_nil (s : State) (i : Instr) : portOf s.config i ≠ .con ∨ response s i = [] := by
  cases i with
  | nReport | nOverride args => exact .inr rfl
  | _ => exact .inl nofun

/-- Only a console transaction prints, and it has no record and no flush. -/
theorem consoleEvents_cases (s : State) (i : Instr) :
    consoleEvents s i = [] ∨
      (portOf s.config i = .con ∧ flushing i = false ∧ response s i = [] ∧
        (consoleEvents s i = [.conRejected] ∨ ∃ v, consoleEvents s i = [.conValue v])) := by
  cases i with
  | nReport => exact .inr ⟨rfl, rfl, rfl, .inr ⟨_, rfl⟩⟩
  | nOverride args =>
    cases h : overrideSet args with
    | none => exact .inr ⟨rfl, rfl, rfl, .inl (by simp [consoleEvents, h])⟩
    | some v =>
      cases hp : s.config.overridePrints with
      | true => exact .inr ⟨rfl, rfl, rfl, .inr ⟨v, by simp [consoleEvents, h, overrideEvents, hp]⟩⟩
      | false => exact .inl (by simp [consoleEvents, h, overrideEvents, hp])
  | _ => exact .inl rfl

/-- A flushing transaction is one of five, and answers one byte: ACK or NAK (R52). -/
theorem response_of_flushing {i : Instr} (h : flushing i = true) (s : State) :
    response s i = [0xFA#8] ∨ response s i = [0xFE#8] := by
  cases i with
  | dEnable | dDisable | dSetdefault => exact .inl rfl
  | dUnsup b | cUnrec b => exact .inr rfl
  | _ => exact nomatch h

end Sys2Proof.Machine
end

section
/-!
PROOFS. The Scan Code Encoder (spec/40_scancode_encoder.md R100 to R109): press and release of one position fail alike or encode
the same make code, so the order of the checks, the lengths and the break transform follow from one case analysis.
-/

namespace Sys2Proof.Machine

theorem scanTable_eq_some {c : Config} {set : Byte} {t : MakeTable} (h : scanTable c set = some t) :
    set = 1#8 ∨ set = 2#8 := by
  by_contra hset
  rw [scanTable_unsupported c (not_or.mp hset)] at h
  exact absurd h (by simp)

/-- Press and release of one position give the same error, or the make bytes of one entry and their break transform. -/
theorem scanEncode_cases (c : Config) (row col set : Byte) :
    (∃ e, ∀ pressed, scanEncode c row col pressed set = .error e) ∨
    ∃ m, (set = 1#8 ∨ set = 2#8) ∧
      scanEncode c row col true set = .ok (makeBytes m) ∧
      scanEncode c row col false set = .ok (breakBytes set (makeBytes m)) := by
  by_cases hin : row.toNat ≤ 7 ∧ col.toNat ≤ 12
  swap
  · exact .inl ⟨_, fun pressed => scanEncode_outOfRange hin c pressed set⟩
  cases ht : scanTable c set with
  | none => exact .inl ⟨_, fun pressed => scanEncode_unsupportedSet hin ht pressed⟩
  | some t =>
    have hr : row.toNat < 8 := by omega
    have hc : col.toNat < 13 := by omega
    by_cases hm : romRead t ⟨row.toNat, hr⟩ ⟨col.toNat, hc⟩ = 0#16
    · exact .inl ⟨_, fun pressed => (scanEncode_inRange hr hc ht pressed).trans (if_pos hm)⟩
    · exact .inr ⟨_, scanTable_eq_some ht, (scanEncode_inRange hr hc ht true).trans (if_neg hm),
        (scanEncode_inRange hr hc ht false).trans (if_neg hm)⟩

theorem makeBytes_length (m : MakeCode) : (makeBytes m).length = 1 ∨ (makeBytes m).length = 2 := by
  have hpos := List.length_pos_iff.mpr (makeBytes_ne_nil m)
  have hle := makeBytes_length_le m
  omega

/-- The break transform rewrites the last byte only: Set 1 in place, Set 2 behind a marker byte (R105). -/
theorem breakBytes_append_singleton (set : Byte) (front : List Byte) (last : Byte) :
    breakBytes set (front ++ [last]) =
      if set = 1#8 then front ++ [last ||| 0x80#8] else front ++ [0xF0#8, last] := by
  simp [breakBytes, breakPrefix, set1BreakBit]

theorem breakBytes_length (set : Byte) {bytes : List Byte} (h : bytes ≠ []) :
    (breakBytes set bytes).length = if set = 1#8 then bytes.length else bytes.length + 1 := by
  obtain ⟨front, last, rfl⟩ := (List.eq_nil_or_concat bytes).resolve_left h
  rw [List.concat_eq_append, breakBytes_append_singleton]
  split_ifs <;> simp

/-- Whatever a key event sends fits in the shortest admitted buffer (R26, R106). -/
theorem keyBytes_scanEncode_length_le (c : Config) (row col : Byte) (pressed : Bool) (set : Byte) :
    (keyBytes (scanEncode c row col pressed set)).length ≤ 3 := by
  rcases scanEncode_cases c row col set with ⟨e, he⟩ | ⟨m, -, hpress, hrelease⟩
  · simp [he pressed]
  · have hmake := makeBytes_length_le m
    have hbreak := breakBytes_length_le set (makeBytes_ne_nil m)
    cases pressed with
    | true => rw [hpress, keyBytes_ok]; omega
    | false => rw [hrelease, keyBytes_ok]; omega

/-- Settles O36: the checks in their order; in range and in a supported set the entry decides. -/
theorem encoderChecksInOrder : Obligations.EncoderChecksInOrder := by
  intro c row col pressed set
  refine ⟨fun hout => ?_, fun hin h1 h2 => ?_, fun hr hc t hsel => ?_⟩
  · exact scanEncode_outOfRange (by omega) c pressed set
  · exact scanEncode_unsupportedSet hin (scanTable_unsupported c ⟨h1, h2⟩) pressed
  have ht : scanTable c set = some t := by
    rcases hsel with ⟨rfl, rfl⟩ | ⟨rfl, rfl⟩
    · exact scanTable_set1 c
    · exact scanTable_set2 c
  exact ⟨fun hm => (scanEncode_inRange hr hc ht pressed).trans (if_pos hm),
    fun hm => ⟨_, (scanEncode_inRange hr hc ht pressed).trans (if_neg hm)⟩⟩

/-- Settles O37: a make code is one or two bytes, and only the Set 2 transform adds one. -/
theorem encodedLengthsBounded : Obligations.EncodedLengthsBounded := by
  intro c row col pressed set bytes h
  rcases scanEncode_cases c row col set with ⟨e, he⟩ | ⟨m, hset, hpress, hrelease⟩
  · rw [he pressed] at h
    exact absurd h (by simp)
  have hmake := makeBytes_length m
  have hbreak := breakBytes_length set (makeBytes_ne_nil m)
  refine ⟨?_, ?_⟩
  · rintro rfl
    obtain rfl : makeBytes m = bytes := Except.ok.inj (hpress.symm.trans h)
    exact hmake
  · rintro rfl
    obtain rfl : breakBytes set (makeBytes m) = bytes := Except.ok.inj (hrelease.symm.trans h)
    rcases hset with rfl | rfl
    · rw [if_pos rfl] at hbreak
      exact .inl ⟨rfl, by omega⟩
    · rw [if_neg (by decide)] at hbreak
      exact .inr ⟨rfl, by omega⟩

/-- Settles O38: both encode one make code, and the transform rewrites the last byte of what the press sends. -/
theorem releaseIsBreakTransformOfPress : Obligations.ReleaseIsBreakTransformOfPress := by
  intro c row col set
  rcases scanEncode_cases c row col set with ⟨e, he⟩ | ⟨m, -, hpress, hrelease⟩
  · simp [he]
  refine ⟨fun front last h => ?_, fun e => ?_⟩
  · have hmake : makeBytes m = front ++ [last] := Except.ok.inj (hpress.symm.trans h)
    rw [hrelease, hmake, breakBytes_append_singleton]
  · simp [hpress, hrelease]

end Sys2Proof.Machine
end

section
/-!
PROOFS. The typematic unit (spec/43_typematic.md R201, R202, R205, R207): the inter-repeat delay is a strictly increasing function
of the five low bits of the rate byte, and the facts about it are facts about the 32 values of that function.
-/

namespace Sys2Proof.Machine

/-- The inter-repeat delay as a function of `b[4:0]` (R200). -/
def interDelayOf (k : Fin 32) : Nat := 1000 * 2 ^ (k.val / 8) * (k.val % 8 + 8) / 240

/-- Bits 4:0 of a rate byte. -/
def rateLow (b : Byte) : Fin 32 := ⟨b.toNat % 32, Nat.mod_lt _ (by decide)⟩

theorem rateInterDelay_eq_interDelayOf (b : Byte) : rateInterDelay b = interDelayOf (rateLow b) := by
  have hB : b.toNat % 32 / 8 = b.toNat / 8 % 4 := by omega
  have hD : b.toNat % 32 % 8 = b.toNat % 8 := by omega
  rw [rateInterDelay_eq, interDelayOf, rateLow, hB, hD]

theorem interDelayOf_strictMono : StrictMono interDelayOf :=
  Fin.strictMono_iff_lt_succ.mpr (by decide)

/-- The default inter-repeat delay has one code of five bits (R205). -/
theorem rateInterDelay_eq_default_iff (b : Byte) : rateInterDelay b = 91 ↔ b.toNat % 32 = 11 := by
  have h : interDelayOf 11 = 91 := by decide
  rw [rateInterDelay_eq_interDelayOf, ← h, interDelayOf_strictMono.injective.eq_iff, Fin.ext_iff]
  rfl

/-- Settles O33: each table is read at its own field. -/
theorem rateTablesMatch : Obligations.RateTablesMatch := by
  intro b
  constructor
  · have hfield : b.toNat / 32 % 4 < 4 := Nat.mod_lt _ (by decide)
    rw [rateFirstDelay_eq]
    interval_cases b.toNat / 32 % 4 <;> rfl
  · have htable : ∀ k : Fin 32, [33, 37, 41, 45, 50, 54, 58, 62, 66, 75, 83, 91, 100, 108, 116, 125,
        133, 150, 166, 183, 200, 216, 233, 250, 266, 300, 333, 366, 400, 433, 466, 500][k.val]? = some (interDelayOf k) := by
      decide
    rw [rateInterDelay_eq_interDelayOf]
    exact htable (rateLow b)

/-- Settles O34: order, range and independence of the inter-repeat delay are those of `interDelayOf`. -/
theorem rateDelaysOrderedAndIndependent : Obligations.RateDelaysOrderedAndIndependent := by
  intro a b
  simp only [rateInterDelay_eq_interDelayOf, rateFirstDelay_eq]
  refine ⟨fun h => interDelayOf_strictMono h, fun h => congrArg interDelayOf (Fin.ext h), fun h => by rw [h], ?_, ?_, ?_⟩
  · exact interDelayOf_strictMono.monotone (Fin.zero_le (rateLow a))
  · exact interDelayOf_strictMono.monotone (Fin.le_last (rateLow a))
  · have hfield : a.toNat / 32 % 4 < 4 := Nat.mod_lt _ (by decide)
    interval_cases a.toNat / 32 % 4 <;> simp

/-- Settles O35: the two delays fix bits 6:5 and 4:0, which leaves bit 7 free. -/
theorem defaultRateByteIsUnique : Obligations.DefaultRateByteIsUnique := by
  refine ⟨fun b => ?_, fun s => ?_⟩
  · have hb := b.isLt
    rw [rateInterDelay_eq_default_iff, rateFirstDelay_eq, ← BitVec.toNat_inj, ← BitVec.toNat_inj]
    simp only [BitVec.toNat_ofNat]
    omega
  · rw [State.typematicReset_eq, State.setRate_eq, rateFirstDelay_default, rateInterDelay_default]

end Sys2Proof.Machine
end

section
/-!
PROOFS. The invariant, and that no run stops (spec/10_state.md R30, spec/60_exceptions.md R235): every transaction keeps the
invariant, column by column, and the one refusal of a step is ruled out by it.
-/

namespace Sys2Proof.Machine

/-! ## Reset -/

theorem State.resetWith_inv {c : Config} (h : c.wf = true) : (State.resetWith c).Inv where
  config_wf := h
  mode_legal := nofun
  cfg_wf := Memory.wf_reset c
  first_delay := rateFirstDelay_default.symm
  inter_delay := rateInterDelay_default.symm
  resend_fits := Nat.zero_le _
  records := nofun

/-- The one entry of `SET2_TABLE` that the source prints stands in the default table (R27). -/
theorem Config.knownEntry_default : Config.default.knownEntry = true := by
  simp [Config.knownEntry, Config.default, Config.set2TableDefault]

/-- The default codes, windows and buffer meet the constraints of R170 and R26. -/
theorem Config.wf_default : Config.default.wf = true := by
  have hcodes : Config.default.codesDistinct = true := by decide
  have hfit : Config.default.windowsFit = true := by decide
  have hapart : Config.default.windowsApart = true := by decide
  have houtside : Config.default.codesOutsideWindows = true := by decide
  have hbuffer : Config.default.bufferFits = true := by decide
  simp only [Config.wf, hcodes, hfit, hapart, houtside, hbuffer, Config.knownEntry_default, Bool.and_self]

/-- Settles O39: every register but the counters has its listed value, and no cell of the controller RAM is listed. -/
theorem resetState : Obligations.ResetState := by
  refine ⟨rfl, fun c => ⟨Config.firstCounterReset, Config.interCounterReset, rfl, fun i => ?_⟩⟩
  have hi : i.toNat < c.cfgReset.toList.length := by simpa using i.isLt
  calc (State.resetWith c).readCfg i = c.cfgReset.toList.getD i.toNat 0 := rfl
    _ = c.cfgReset.toList[i.toNat] := List.getD_eq_getElem _ _ hi
    _ = c.cfgReset[i.toNat] := Vector.getElem_toList hi

/-- Settles O40: reset writes the default timing, an empty buffer, an empty output and no cell. -/
theorem resetMeetsInvariant : Obligations.ResetMeetsInvariant :=
  ⟨fun _ h => State.resetWith_inv h, State.resetWith_inv Config.wf_default⟩

/-! ## Each column keeps its part of the invariant -/

/-- Only `D.SETRATE` enters the seventh mode, and only where the configuration has it (R11). -/
theorem modeAfter_legal {c : Config} {m : Mode}
    (h : m = .awaitingTypematicValue → c.typematicOperand = .nextDataByte) (i : Instr)
    (hi : modeAfter c m i = .awaitingTypematicValue) : c.typematicOperand = .nextDataByte := by
  cases i with
  | dSetrate =>
    by_contra hop
    exact hop (h ((if_neg hop).symm.trans hi))
  | dScanset | dSetleds | dScansetGet | dScansetSet b | dLedValue b | dCfgValue b | dEchoValue b | dAuxValue b
  | dRateValue b | cWrcfg | cWrram k | cAuxecho | cAuxsend => exact nomatch hi
  | _ => exact h hi

theorem cfgAfter_wf {s : State} (h : Memory.wf s.config s.cfg = true) (i : Instr) :
    Memory.wf s.config (cfgAfter s i) = true := by
  cases i with
  | dCfgValue b => exact Memory.wf_writeCfg s.cfgAddr b h
  | cKbddis | cKbden | cAuxdis | cAuxen => exact Memory.wf_writeCfg 0#5 _ h
  | _ => exact h

/-- The two delays of a triple of typematic registers are those of its rate byte. -/
def DelaysMatch (r : Byte × Nat × Nat) : Prop := r.2.1 = rateFirstDelay r.1 ∧ r.2.2 = rateInterDelay r.1

/-- Every write of the timing is a rate byte with its own delays (R200, R205). -/
theorem timingAfter_delaysMatch (c : Config) {old : Byte × Nat × Nat} (h : DelaysMatch old) (i : Instr) :
    DelaysMatch (timingAfter c old i) := by
  cases i with
  | dSetrate =>
    unfold timingAfter
    split_ifs
    · exact h
    · exact ⟨rfl, rfl⟩
  | dRateValue b => exact ⟨rfl, rfl⟩
  | dDisable | dSetdefault | dUnsup b | cUnrec b =>
    exact ⟨rateFirstDelay_default.symm, rateInterDelay_default.symm⟩
  | _ => exact h

/-- Every record but that of the resend command is at most three bytes long (R25, R26). -/
theorem response_length_le {i : Instr} (h : i ≠ .dResend) (s : State) : (response s i).length ≤ 3 := by
  cases i with
  | dResend => exact absurd rfl h
  | kPress row col | kRelease row col => exact keyBytes_scanEncode_length_le ..
  | _ => exact of_decide_eq_true rfl

theorem Config.three_le_maxScanCodeLen {c : Config} (h : c.wf = true) : 3 ≤ c.maxScanCodeLen := by
  simp only [Config.wf, Bool.and_eq_true] at h
  exact of_decide_eq_true h.1.2

theorem resendAfter_length_le {s : State} (h : s.Inv) (i : Instr) :
    (resendAfter s i).length ≤ s.config.maxScanCodeLen := by
  unfold resendAfter
  split_ifs with hcap
  · have hi : i ≠ .dResend := by
      rintro rfl
      exact nomatch hcap
    exact (response_length_le hi s).trans (Config.three_le_maxScanCodeLen h.config_wf)
  · exact h.resend_fits

/-- The only record among the events of a transaction is its response, on its port (R48). -/
theorem tx_mem_eventsOf {s : State} {i : Instr} {p : Port} {bytes : List Byte} (h : .tx p bytes ∈ eventsOf s i) :
    p = portOf s.config i ∧ bytes = response s i ∧ bytes ≠ [] := by
  have hflush : Output.tx p bytes ∉ (if flushing i then [.flush] else [] : List Output) := by
    split_ifs <;> simp
  have hcon : Output.tx p bytes ∉ consoleEvents s i := by
    rcases consoleEvents_cases s i with hc | ⟨-, -, -, hc | ⟨v, hc⟩⟩ <;> simp [hc]
  simp only [eventsOf, List.mem_append, hflush, hcon, false_or] at h
  obtain ⟨heq, hne⟩ := mem_txEvents h
  obtain ⟨rfl, rfl⟩ := Output.tx.inj heq
  exact ⟨rfl, rfl, hne⟩

theorem eventsOf_records {s : State} (h : s.Inv) {i : Instr} {p : Port} {bytes : List Byte}
    (hmem : .tx p bytes ∈ eventsOf s i) :
    bytes ≠ [] ∧ bytes.length ≤ s.config.maxScanCodeLen + 1 ∧ p ≠ .con := by
  obtain ⟨rfl, rfl, hne⟩ := tx_mem_eventsOf hmem
  refine ⟨hne, ?_, (portOf_ne_con_or_response_eq_nil s i).resolve_right hne⟩
  by_cases hi : i = .dResend
  · subst hi
    exact Nat.succ_le_succ h.resend_fits
  · have hlen := response_length_le hi s
    have hmax := Config.three_le_maxScanCodeLen h.config_wf
    omega

/-! ## Steps and runs -/

/-- Every transaction keeps the invariant, in whatever mode it runs. -/
theorem effect_inv {s : State} (h : s.Inv) (i : Instr) : (effect i s).Inv where
  config_wf := h.config_wf
  mode_legal := modeAfter_legal h.mode_legal i
  cfg_wf := cfgAfter_wf h.cfg_wf i
  first_delay := (timingAfter_delaysMatch s.config ⟨h.first_delay, h.inter_delay⟩ i).1
  inter_delay := (timingAfter_delaysMatch s.config ⟨h.first_delay, h.inter_delay⟩ i).2
  resend_fits := resendAfter_length_le h i
  records p bytes hmem := by
    rcases List.mem_append.mp hmem with hold | hnew
    · exact h.records p bytes hold
    · exact eventsOf_records h hnew

theorem State.setInbox_inv {s : State} (h : s.Inv) (items : List Arrival) : (s.setInbox items).Inv :=
  ⟨h.config_wf, h.mode_legal, h.cfg_wf, h.first_delay, h.inter_delay, h.resend_fits, h.records⟩

theorem step_inv {s t : State} (h : s.Inv) (hstep : step s = .next t) : t.Inv := by
  rcases step_next hstep with rfl | ⟨a, rest, i, -, -, rfl⟩
  · exact h
  · exact effect_inv (State.setInbox_inv h rest) i

/-- Progress: the invariant rules out the one item that is not decoded. -/
theorem step_progress {s : State} (h : s.Inv) : ∃ t, step s = .next t := by
  cases hbox : s.inbox with
  | nil => exact ⟨s, step_of_inbox_nil hbox⟩
  | cons a rest =>
    cases hd : decode s.config s.mode a with
    | ok i => exact ⟨_, (step_of_decode_ok hbox hd).trans (exec_eq i _)⟩
    | error e =>
      obtain ⟨hmode, hop⟩ := decode_eq_error hd
      exact absurd (h.mode_legal hmode) hop

theorem run_succ {s t : State} (h : step s = .next t) (k : Nat) :
    Host.Core.run Sys2Proof.core (k + 1) s = Host.Core.run Sys2Proof.core k t := by
  have hcore : Sys2Proof.core.step s = .next t := h
  simp only [Host.Core.run, hcore]

/-- Settles O41: a step waits, or takes the effect of one transaction. -/
theorem stepKeepsInvariant : Obligations.StepKeepsInvariant :=
  fun _ _ h hstep => step_inv h hstep

/-- Settles O42, by induction on the number of steps: progress, then the invariant of the next state. -/
theorem runsNeverStop : Obligations.RunsNeverStop := by
  intro k
  induction k with
  | zero => exact fun s h => ⟨s, rfl, h⟩
  | succ k ih =>
    intro s h
    obtain ⟨t, hstep⟩ := step_progress h
    obtain ⟨u, hrun, hu⟩ := ih t (step_inv h hstep)
    exact ⟨u, (run_succ hstep k).trans hrun, hu⟩

/-- A `DATA` byte is not decoded exactly in the seventh mode of a configuration without it. -/
theorem decode_data_error_iff {c : Config} {m : Mode} {b : Byte} :
    (∃ e, decode c m (.data b) = .error e) ↔ m = .awaitingTypematicValue ∧ c.typematicOperand ≠ .nextDataByte := by
  refine ⟨fun ⟨e, h⟩ => decode_eq_error h, ?_⟩
  rintro ⟨rfl, hop⟩
  exact ⟨_, if_neg hop⟩

theorem typematicOperand_ne_nextDataByte {o : TypematicOperand} : o ≠ .nextDataByte ↔ o = .commandByte := by
  cases o <;> decide

/-- Settles O43: a step refuses an item that is not decoded, and nothing else. -/
theorem stepRefusesOnlyAbsentMode : Obligations.StepRefusesOnlyAbsentMode := by
  intro s r
  constructor
  · intro h
    cases hbox : s.inbox with
    | nil => rw [step_of_inbox_nil hbox] at h; exact absurd h (by simp)
    | cons a rest =>
      cases hd : decode s.config s.mode a with
      | ok i => rw [step_of_decode_ok hbox hd, exec_eq] at h; exact absurd h (by simp)
      | error e =>
        rw [step_of_decode_error hbox hd] at h
        obtain ⟨hmode, hop⟩ := decode_eq_error hd
        refine ⟨(Host.Outcome.refused.inj h).symm, hmode, typematicOperand_ne_nextDataByte.mp hop, ?_⟩
        cases a with
        | data b => exact ⟨b, rest, rfl⟩
        | cmd b | key row col pressed | con args => exact nomatch hd
  · rintro ⟨rfl, hmode, hop, b, rest, hbox⟩
    obtain ⟨e, hd⟩ := decode_data_error_iff.mpr ⟨hmode, typematicOperand_ne_nextDataByte.mpr hop⟩
    exact step_of_decode_error hbox hd

/-- Settles O6: the waiting step, and the step of an item that decodes. -/
theorem stepRunsDecodedItem : Obligations.StepRunsDecodedItem := by
  intro s
  exact ⟨step_of_inbox_nil, fun a rest i hbox hd => step_of_decode_ok hbox hd⟩

end Sys2Proof.Machine
end

section
/-!
PROOFS. Resend fidelity (spec/41_data_channel.md R150, R151): a captured record stays in the ResendBuffer through every item that
does not capture, so the resend command replays it.
-/

namespace Sys2Proof.Laws

/-- A transaction whose code is a `DATA` byte of mode `m'` was decoded from that byte, in that mode. -/
theorem decode_onData {c : Config} {m m' : Mode} {a : Arrival} {b : Byte} {i : Instr}
    (hcode : encode c i = onData m' b) (h : decode c m a = .ok i) : a = .data b ∧ m = m' := by
  obtain ⟨-, ha, hm⟩ := decode_wellFormed h
  rw [hcode] at ha hm
  exact ⟨ha.symm, by simpa [onData, Encoded.meets] using hm⟩

/-- A transaction whose code is a `CMD` byte was decoded from that byte. -/
theorem decode_onCmd {c : Config} {m : Mode} {a : Arrival} {b : Byte} {i : Instr} (hcode : encode c i = onCmd b)
    (h : decode c m a = .ok i) : a = .cmd b := by
  obtain ⟨-, ha, -⟩ := decode_wellFormed h
  rw [hcode] at ha
  exact ha.symm

/-- An operand byte decodes to one of the seven operand transactions (R64). -/
theorem decode_operand {c : Config} {m : Mode} {b : Byte} {i : Instr} (hm : m ≠ .normal)
    (h : decode c m (.data b) = .ok i) :
    i ∈ [Instr.dScansetGet, .dScansetSet b, .dLedValue b, .dCfgValue b, .dEchoValue b, .dAuxValue b, .dRateValue b] := by
  cases m with
  | normal => exact absurd rfl hm
  | awaitingScancodeSetValue =>
    obtain rfl := Except.ok.inj h
    split_ifs <;> simp
  | awaitingTypematicValue =>
    by_cases hop : c.typematicOperand = .nextDataByte
    · obtain rfl : Instr.dRateValue b = i := by simpa [decode, decodeData, hop] using h
      simp
    · simp [decode, decodeData, hop] at h
  | awaitingLedValue | awaitingConfigByteValue | echoToCaller | forwardToSecondaryDevice =>
    obtain rfl := Except.ok.inj h
    simp

/-- A `CMD` byte decodes to one of the eleven commands (R65). -/
theorem decodeCmd_mem (c : Config) (b : Byte) :
    decodeCmd c b ∈ [Instr.cRdcfg, .cWrcfg, .cKbddis, .cKbden, .cAuxdis, .cAuxen, .cAuxecho, .cAuxsend,
      .cRdram (windowIndex c.cfgReadBase b), .cWrram (windowIndex c.cfgWriteBase b), .cUnrec b] := by
  rcases decodeCmd_cases c b with h | ⟨-, ⟨-, h⟩ | ⟨-, h⟩ | ⟨-, h⟩⟩
  · exact List.mem_append_left [.cRdram _, .cWrram _, .cUnrec _] (List.mem_map_of_mem (f := Prod.snd) h)
  · simp [h]
  · simp [h]
  · simp [h]

end Sys2Proof.Laws

namespace Sys2Proof.Machine

theorem step_of_item {s t : State} {a : Arrival} {rest : List Arrival} {i : Instr} (hbox : s.inbox = a :: rest)
    (hd : decode s.config s.mode a = .ok i) (h : step s = .next t) : t = effect i (s.setInbox rest) := by
  rw [step_of_decode_ok hbox hd] at h
  exact exec_next_iff.mp h

theorem step_config {s t : State} (h : step s = .next t) : t.config = s.config := by
  rcases step_next h with rfl | ⟨a, rest, i, -, -, rfl⟩ <;> rfl

theorem resendAfter_of_captures {s : State} {i : Instr} (hcap : captures s.config.resendCapture i = true)
    (hne : response s i ≠ []) :
    resendAfter s i = response s i :=
  if_pos (by simp [hcap, hne])

theorem resendAfter_of_not {s : State} {i : Instr} (h : captures s.config.resendCapture i = false ∨ response s i = []) :
    resendAfter s i = s.resend :=
  if_neg (by rcases h with h | h <;> simp [h])

/-- Every `DATA` command of `Normal` mode but the resend command captures (R150, R134). -/
theorem captures_decodeNormal (r : ResendCapture) {b : Byte} (h : b ≠ 0xFE#8) : captures r (decodeNormal b) = true := by
  by_cases hn : b ∈ normalCodes
  · have hlisted : ∀ b ∈ normalCodes, b ≠ 0xFE#8 → captures r (decodeNormal b) = true := by
      cases r <;> decide
    exact hlisted b hn h
  · rw [Laws.decodeNormal_of_not_mem hn]
    rfl

/-- Under `normal_mode_only`, an item that `capturing` excludes leaves the ResendBuffer as it was (R150). -/
theorem resendAfter_of_quiet {s : State} {m : Mode} {a : Arrival} {i : Instr}
    (hcfg : s.config.resendCapture = .normalModeOnly) (hd : decode s.config m a = .ok i) (hquiet : capturing m a = false) :
    resendAfter s i = s.resend := by
  apply resendAfter_of_not
  cases a with
  | data b =>
    by_cases hm : m = .normal
    · subst hm
      obtain rfl := Laws.decode_normal_data hd
      have hb : b = 0xFE#8 ∨ b = 0x60#8 ∨ b = 0x45#8 := by
        simp only [capturing, bne, beq_self_eq_true, Bool.true_and, Bool.and_eq_false_iff, Bool.not_eq_false',
          beq_iff_eq] at hquiet
        tauto
      rcases hb with rfl | rfl | rfl
      · exact .inl rfl
      · exact .inr rfl
      · exact .inr rfl
    · left
      have hi := Laws.decode_operand hm hd
      simp only [List.mem_cons, List.not_mem_nil, or_false] at hi
      rcases hi with rfl | rfl | rfl | rfl | rfl | rfl | rfl <;>
        exact congrArg capturesOperands hcfg
  | cmd b =>
    left
    have hi := Laws.decodeCmd_mem s.config b
    rw [← Laws.decode_cmd hd] at hi
    simp only [List.mem_cons, List.not_mem_nil, or_false] at hi
    rcases hi with rfl | rfl | rfl | rfl | rfl | rfl | rfl | rfl | rfl | rfl | rfl <;>
      exact congrArg capturesCommands hcfg
  | key row col pressed =>
    obtain rfl := Except.ok.inj hd
    cases pressed <;> exact .inl rfl
  | con args =>
    obtain rfl := Except.ok.inj hd
    cases args <;> exact .inl rfl

/-- A quiet run changes neither the ResendBuffer nor the configuration (R151). -/
theorem quietRun_resend {s u : State} (h : QuietRun s u) (hcfg : s.config.resendCapture = .normalModeOnly) :
    u.resend = s.resend := by
  induction h with
  | refl s => rfl
  | @head s t u hstep hquiet _ ih =>
    have hu : u.resend = t.resend := ih (by rw [step_config hstep, hcfg])
    rcases step_next hstep with rfl | ⟨a, rest, i, hbox, hd, rfl⟩
    · exact hu
    · exact hu.trans (resendAfter_of_quiet (s := s.setInbox rest) hcfg hd (hquiet a rest hbox))

/-- Settles O56: the record is captured, the run keeps it, and the resend command replays it behind an ACK. -/
theorem resendFidelity : Obligations.ResendFidelity := by
  intro s t u b rest rest' evs R hcfg hmode hbox hb hstep hout hR hrun humode hubox
  have hd : decode s.config s.mode (.data b) = .ok (decodeNormal b) := by rw [hmode, Laws.decode_normal_data_eq]
  obtain rfl := step_of_item hbox hd hstep
  obtain rfl : eventsOf (s.setInbox rest) (decodeNormal b) = evs := List.append_cancel_left hout
  obtain ⟨-, hresp, hne⟩ := tx_mem_eventsOf hR
  have hcaptured : (effect (decodeNormal b) (s.setInbox rest)).resend = R := by
    rw [effect_resend, resendAfter_of_captures (captures_decodeNormal _ hb) (hresp ▸ hne), hresp]
  have hkept : u.resend = R := (quietRun_resend hrun hcfg).trans hcaptured
  have hud : decode u.config u.mode (.data 0xFE#8) = .ok .dResend := by rw [humode]; rfl
  rw [step_of_decode_ok hubox hud, exec_dResend, ← hkept]
  rfl

end Sys2Proof.Machine
end

section
/-!
PROOFS. Who writes what (spec/10_state.md R12 to R20, spec/43_typematic.md R203, R204): for each register the transactions that can
change it, and the items those transactions are decoded from.
-/

namespace Sys2Proof.Laws

theorem not_mem_normalCodes_ne {b k : Byte} (h : b ∉ normalCodes) (hk : k ∈ normalCodes) : b ≠ k :=
  fun heq => h (heq ▸ hk)

/-- In an admitted configuration the write window and `CMD_WRITE_CFG` hold no other single code (R170). -/
theorem not_write_of_single {c : Config} (h : c.wf = true) {b : Byte} (hb : b ∈ c.singleCodes) (hne : b ≠ c.cmdWriteCfg) :
    ¬(b = c.cmdWriteCfg ∨ windowHolds c.cfgWriteBase b = true) := by
  rintro (heq | hwin)
  · exact hne heq
  · exact hne ((singleCode_in_window h hb).2 hwin).1

/-- In an admitted configuration the two windows are disjoint (R170). -/
theorem windows_disjoint {c : Config} (h : c.wf = true) {b : Byte} (hr : windowHolds c.cfgReadBase b = true) :
    windowHolds c.cfgWriteBase b = false := by
  obtain ⟨-, -, -, hapart⟩ := config_codes h
  rw [Bool.eq_false_iff]
  intro hw
  obtain ⟨hr1, hr2⟩ := windowHolds_iff.mp hr
  obtain ⟨hw1, hw2⟩ := windowHolds_iff.mp hw
  omega

end Sys2Proof.Laws

namespace Sys2Proof.Machine

/-! ## `mode` -/

theorem modeAfter_operand {c : Config} {m : Mode} {b : Byte} {i : Instr} (hm : m ≠ .normal)
    (h : decode c m (.data b) = .ok i) : modeAfter c m i = .normal := by
  have hi := Laws.decode_operand hm h
  simp only [List.mem_cons, List.not_mem_nil, or_false] at hi
  rcases hi with rfl | rfl | rfl | rfl | rfl | rfl | rfl <;> rfl

theorem modeAfter_decodeNormal (c : Config) (m : Mode) (b : Byte) :
    modeAfter c m (decodeNormal b) =
      if b = 0xF0#8 then .awaitingScancodeSetValue
      else if b = 0xED#8 then .awaitingLedValue
      else if b = 0xF3#8 ∧ c.typematicOperand = .nextDataByte then .awaitingTypematicValue
      else m := by
  by_cases hn : b ∈ normalCodes
  · revert b
    simp only [normalCodes, List.forall_mem_cons]
    exact ⟨rfl, rfl, rfl, by simp [decodeNormal, modeAfter], rfl, rfl, rfl, rfl, rfl, rfl, rfl, nofun⟩
  · rw [Laws.decodeNormal_of_not_mem hn, if_neg (Laws.not_mem_normalCodes_ne hn (by decide)),
      if_neg (Laws.not_mem_normalCodes_ne hn (by decide)),
      if_neg (fun h => Laws.not_mem_normalCodes_ne hn (by decide) h.1)]
    rfl

/-- A `CMD` byte enters a mode exactly when it is one of the codes that name one: the constraint on the codes keeps them apart
(R12, R170). -/
theorem modeAfter_decodeCmd {c : Config} (h : c.wf = true) (m : Mode) (b : Byte) :
    modeAfter c m (decodeCmd c b) =
      if b = c.cmdWriteCfg ∨ windowHolds c.cfgWriteBase b = true then .awaitingConfigByteValue
      else if b = c.cmdAuxEcho then .echoToCaller
      else if b = c.cmdAuxSend then .forwardToSecondaryDevice
      else m := by
  rcases Laws.decodeCmd_cases c b with hs | ⟨hs, hrest⟩
  · have hnodup := (Laws.config_codes h).1
    have hwrite (hb : b ∈ c.singleCodes) (hne : b ≠ c.cmdWriteCfg) := Laws.not_write_of_single h hb hne
    simp only [Config.singleCodes, List.nodup_cons, List.mem_cons, List.not_mem_nil, or_false, not_or] at hnodup
    simp only [Laws.singleCommands, List.mem_cons, Prod.mk.injEq, List.not_mem_nil, or_false] at hs
    rcases hs with ⟨rfl, hi⟩ | ⟨rfl, hi⟩ | ⟨rfl, hi⟩ | ⟨rfl, hi⟩ | ⟨rfl, hi⟩ | ⟨rfl, hi⟩ | ⟨rfl, hi⟩ | ⟨rfl, hi⟩
    case inr.inl => rw [hi, if_pos (.inl rfl)]; rfl
    all_goals
      rw [hi, if_neg (hwrite (by simp [Config.singleCodes]) (by simp [hnodup, Ne.symm]))]
      simp [modeAfter, hnodup, Ne.symm]
  · simp only [Config.singleCodes, List.mem_cons, List.not_mem_nil, or_false, not_or] at hs
    rcases hrest with ⟨hr, hi⟩ | ⟨hw, hi⟩ | ⟨hwf, hi⟩
    · have hw := Laws.windows_disjoint h hr
      simp [hi, modeAfter, hs, hw]
    · rw [hi, if_pos (.inr hw)]
      rfl
    · have hw : windowHolds c.cfgWriteBase b = false := by
        simp only [WellFormed, Bool.and_eq_true, Bool.not_eq_true'] at hwf
        exact hwf.2
      simp [hi, modeAfter, hs, hw]

/-- Settles O44: the mode column at the transactions of each port. -/
theorem modeTransitions : Obligations.ModeTransitions := by
  intro s t a rest hwf hbox hstep
  obtain ⟨i, hd, rfl⟩ := step_cons hbox hstep
  refine ⟨?_, ?_, ?_, ?_, ?_⟩
  · rintro b rfl hm
    exact modeAfter_operand hm hd
  · rintro b rfl hm
    rw [hm] at hd
    obtain rfl := Laws.decode_normal_data hd
    rw [effect_mode, modeAfter_decodeNormal, State.setInbox_mode, State.setInbox_config, hm]
  · rintro b rfl
    obtain rfl := Laws.decode_cmd hd
    exact modeAfter_decodeCmd hwf s.mode b
  · rintro row col pressed rfl
    obtain rfl := Except.ok.inj hd
    cases pressed <;> rfl
  · rintro args rfl
    obtain rfl := Except.ok.inj hd
    cases args <;> rfl

/-! ## `scancode_set` -/

theorem scancodeSetAfter_ne {set : Byte} {i : Instr} (h : scancodeSetAfter set i ≠ set) :
    (∃ b, i = .dScansetSet b) ∨ i = .nOverride [.int 1] ∨ i = .nOverride [.int 2] := by
  cases i with
  | dScansetSet b => exact .inl ⟨b, rfl⟩
  | nOverride args =>
    cases hset : overrideSet args with
    | none => exact absurd (by simp [scancodeSetAfter, hset]) h
    | some v =>
      rcases overrideSet_eq_some hset with ⟨rfl, -⟩ | ⟨rfl, -⟩
      · exact .inr (.inl rfl)
      · exact .inr (.inr rfl)
  | _ => exact absurd rfl h

theorem decode_nOverride {c : Config} {m : Mode} {a : Arrival} {args : List ConArg}
    (h : decode c m a = .ok (.nOverride args)) : a = .con args :=
  (Laws.decode_wellFormed h).2.1.symm

/-- Settles O45: the set operand and the two accepted overrides, and what they are decoded from. -/
theorem scancodeSetWriters : Obligations.ScancodeSetWriters := by
  intro s t a rest hbox hstep
  obtain ⟨i, hd, rfl⟩ := step_cons hbox hstep
  refine ⟨?_, ?_, ?_, ?_⟩
  · rintro b rfl hm hb
    obtain rfl : Instr.dScansetSet b = i := by simpa [hm, decode, decodeData, hb] using hd
    rfl
  · rintro rfl
    obtain rfl := Except.ok.inj hd
    rfl
  · rintro rfl
    obtain rfl := Except.ok.inj hd
    rfl
  · intro hne
    rcases scancodeSetAfter_ne hne with ⟨b, rfl⟩ | rfl | rfl
    · obtain ⟨rfl, hm⟩ := Laws.decode_onData rfl hd
      exact .inl ⟨b, rfl, hm, by simpa [WellFormed] using (Laws.decode_wellFormed hd).1⟩
    · exact .inr (.inl (decode_nOverride hd))
    · exact .inr (.inr (decode_nOverride hd))

/-! ## `enabled` -/

theorem enabledAfter_decodeNormal (e : Bool) (b : Byte) :
    enabledAfter e (decodeNormal b) =
      if b = 0xF4#8 then true else if b = 0xF5#8 ∨ b = 0xFF#8 ∨ b ∉ normalCodes then false else e := by
  by_cases hn : b ∈ normalCodes
  · revert e b
    decide
  · rw [Laws.decodeNormal_of_not_mem hn, if_neg (Laws.not_mem_normalCodes_ne hn (by decide)), if_pos (.inr (.inr hn))]
    rfl

theorem enabledAfter_operand {c : Config} {m : Mode} {b : Byte} {i : Instr} (hm : m ≠ .normal)
    (h : decode c m (.data b) = .ok i) (e : Bool) : enabledAfter e i = e := by
  have hi := Laws.decode_operand hm h
  simp only [List.mem_cons, List.not_mem_nil, or_false] at hi
  rcases hi with rfl | rfl | rfl | rfl | rfl | rfl | rfl <;> rfl

theorem enabledAfter_decodeCmd (c : Config) (e : Bool) (b : Byte) :
    enabledAfter e (decodeCmd c b) = if WellFormed c (.cUnrec b) = true then false else e := by
  split_ifs with hw
  · rw [Laws.decodeCmd_eq_cUnrec_iff.mpr ⟨hw, rfl⟩]
    rfl
  · have hne : decodeCmd c b ≠ .cUnrec b := fun h => hw (Laws.decodeCmd_eq_cUnrec_iff.mp h).1
    have hi := Laws.decodeCmd_mem c b
    generalize decodeCmd c b = i at hi hne
    simp only [List.mem_cons, List.not_mem_nil, or_false, hne] at hi
    rcases hi with rfl | rfl | rfl | rfl | rfl | rfl | rfl | rfl | rfl | rfl <;> rfl

/-- Settles O46: the column of `enabled` at the transactions of each port. -/
theorem enabledWriters : Obligations.EnabledWriters := by
  intro s t a rest hbox hstep
  obtain ⟨i, hd, rfl⟩ := step_cons hbox hstep
  refine ⟨?_, ?_, ?_, ?_⟩
  · rintro b rfl
    by_cases hm : s.mode = .normal
    · rw [hm] at hd
      obtain rfl := Laws.decode_normal_data hd
      simpa only [effect_enabled, State.setInbox_enabled, hm, true_and] using enabledAfter_decodeNormal s.enabled b
    · simpa only [effect_enabled, State.setInbox_enabled, hm, false_and, if_false] using enabledAfter_operand hm hd s.enabled
  · rintro b rfl
    obtain rfl := Laws.decode_cmd hd
    exact enabledAfter_decodeCmd s.config s.enabled b
  · rintro row col pressed rfl
    obtain rfl := Except.ok.inj hd
    cases pressed <;> rfl
  · rintro args rfl
    obtain rfl := Except.ok.inj hd
    cases args <;> rfl

/-! ## The typematic registers -/

theorem timingAfter_cases (c : Config) (old : Byte × Nat × Nat) (i : Instr) :
    timingAfter c old i = old ∨
    (timingAfter c old i = (0xF3#8, 1000, 183) ∧ i = .dSetrate ∧ c.typematicOperand = .commandByte) ∨
    (∃ b, timingAfter c old i = (b, rateFirstDelay b, rateInterDelay b) ∧ i = .dRateValue b) ∨
    (timingAfter c old i = (0x2B#8, 500, 91) ∧
      ((i = .dDisable ∨ i = .dSetdefault ∨ ∃ b, i = .dUnsup b) ∨ ∃ b, i = .cUnrec b)) := by
  cases i with
  | dSetrate =>
    by_cases hop : c.typematicOperand = .nextDataByte
    · exact .inl (if_pos hop)
    · have hrate : (0xF3#8, rateFirstDelay 0xF3#8, rateInterDelay 0xF3#8) = (0xF3#8, 1000, 183) := by decide
      exact .inr (.inl ⟨(if_neg hop).trans hrate, rfl, typematicOperand_ne_nextDataByte.mp hop⟩)
  | dRateValue b => exact .inr (.inr (.inl ⟨b, rfl, rfl⟩))
  | dDisable => exact .inr (.inr (.inr ⟨rfl, .inl (.inl rfl)⟩))
  | dSetdefault => exact .inr (.inr (.inr ⟨rfl, .inl (.inr (.inl rfl))⟩))
  | dUnsup b => exact .inr (.inr (.inr ⟨rfl, .inl (.inr (.inr ⟨b, rfl⟩))⟩))
  | cUnrec b => exact .inr (.inr (.inr ⟨rfl, .inr ⟨b, rfl⟩⟩))
  | _ => exact .inl rfl

/-- Settles O47: the writers of the timing and what they are decoded from. -/
theorem typematicWriters : Obligations.TypematicWriters := by
  intro s t a rest hbox hstep
  obtain ⟨i, hd, rfl⟩ := step_cons hbox hstep
  rw [effect_timing]
  rcases timingAfter_cases s.config (s.rateCode, s.firstDelayMs, s.interDelayMs) i with
    hkeep | ⟨heq, rfl, hop⟩ | ⟨b, heq, rfl⟩ | ⟨heq, (rfl | rfl | ⟨b, rfl⟩) | ⟨b, rfl⟩⟩
  · exact .inl hkeep
  · obtain ⟨ha, hm⟩ := Laws.decode_onData rfl hd
    exact .inr (.inl ⟨heq, ha, hm, hop⟩)
  · obtain ⟨ha, hm⟩ := Laws.decode_onData rfl hd
    have hop : s.config.typematicOperand = .nextDataByte := by
      simpa [WellFormed] using (Laws.decode_wellFormed hd).1
    exact .inr (.inr (.inl ⟨b, heq, ha, hm, hop⟩))
  · obtain ⟨ha, hm⟩ := Laws.decode_onData rfl hd
    exact .inr (.inr (.inr ⟨heq, .inl ⟨_, ha, hm, .inl rfl⟩⟩))
  · obtain ⟨ha, hm⟩ := Laws.decode_onData rfl hd
    exact .inr (.inr (.inr ⟨heq, .inl ⟨_, ha, hm, .inr (.inl rfl)⟩⟩))
  · obtain ⟨ha, hm⟩ := Laws.decode_onData rfl hd
    have hb : b ∉ normalCodes := by simpa [WellFormed] using (Laws.decode_wellFormed hd).1
    exact .inr (.inr (.inr ⟨heq, .inl ⟨b, ha, hm, .inr (.inr hb)⟩⟩))
  · have ha := Laws.decode_onCmd rfl hd
    exact .inr (.inr (.inr ⟨heq, .inr ⟨b, ha, (Laws.decode_wellFormed hd).1⟩⟩))

/-! ## The controller RAM and its latched address -/

theorem readCfg_writeCfg_ne {s : State} {i k : CfgIndex} {b : Byte} (h : (s.writeCfg i b).readCfg k ≠ s.readCfg k) :
    k = i := by
  by_contra hk
  exact h (State.readCfg_writeCfg_other s hk b)

/-- A cell that reads differently after a transaction was written by the value operand or by a flag command (R17, R47). -/
theorem readCfg_effect_ne {s : State} {i : Instr} {k : CfgIndex} (h : (effect i s).readCfg k ≠ s.readCfg k) :
    (∃ b, i = .dCfgValue b ∧ k = s.cfgAddr) ∨
      (k = 0#5 ∧ (i = .cKbddis ∨ i = .cKbden ∨ i = .cAuxdis ∨ i = .cAuxen)) := by
  cases i with
  | dCfgValue b => exact .inl ⟨b, rfl, readCfg_writeCfg_ne h⟩
  | cKbddis | cKbden | cAuxdis | cAuxen => exact .inr ⟨readCfg_writeCfg_ne h, by simp⟩
  | _ => exact absurd rfl h

/-- Settles O48: the writers of the controller RAM and what they are decoded from. -/
theorem controllerRamWriters : Obligations.ControllerRamWriters := by
  intro s t a rest k hbox hstep
  obtain ⟨i, hd, rfl⟩ := step_cons hbox hstep
  refine ⟨?_, fun hne => ?_⟩
  · rintro b rfl hm
    rw [hm] at hd
    obtain rfl := Except.ok.inj hd
    exact State.readCfg_writeCfg_same (s.setInbox rest) s.cfgAddr b
  · rcases readCfg_effect_ne hne with ⟨b, rfl, hk⟩ | ⟨hk, rfl | rfl | rfl | rfl⟩
    · obtain ⟨ha, hm⟩ := Laws.decode_onData rfl hd
      exact .inl ⟨b, ha, hm, hk⟩
    all_goals exact .inr ⟨hk, _, Laws.decode_onCmd rfl hd, by simp⟩

theorem cfgAddrAfter_ne {addr : CfgIndex} {i : Instr} (h : cfgAddrAfter addr i ≠ addr) :
    i = .cWrcfg ∨ ∃ k, i = .cWrram k := by
  cases i with
  | cWrcfg => exact .inl rfl
  | cWrram k => exact .inr ⟨k, rfl⟩
  | _ => exact absurd rfl h

/-- Settles O49: the two write commands, and the index their code carries. -/
theorem latchedAddressWriters : Obligations.LatchedAddressWriters := by
  intro s t a rest hwf hbox hstep hne
  obtain ⟨i, hd, rfl⟩ := step_cons hbox hstep
  rcases cfgAddrAfter_ne hne with rfl | ⟨k, rfl⟩
  · exact ⟨_, Laws.decode_onCmd rfl hd, .inl ⟨rfl, rfl⟩⟩
  · obtain ⟨-, -, hfit, -⟩ := Laws.config_codes hwf
    have hcode := Laws.toNat_window hfit k
    have hk := k.isLt
    refine ⟨_, Laws.decode_onCmd rfl hd, .inr ⟨Laws.windowHolds_iff.mpr (by omega), ?_⟩⟩
    rw [hcode, Nat.add_sub_cancel_left]
    rfl

/-- Settles O50: no transaction writes the three fields. -/
theorem configurationAndCountersConstant : Obligations.ConfigurationAndCountersConstant := by
  intro s t hstep
  rcases step_next hstep with rfl | ⟨a, rest, i, -, -, rfl⟩ <;> exact ⟨rfl, rfl, rfl⟩

end Sys2Proof.Machine
end

section
/-!
PROOFS. The output ports (spec/20_memory.md R48, R49, R52): the events of a transaction are nothing, one record behind at most one
flush, or one console event.
-/

namespace Sys2Proof.Machine

theorem eventsOf_cases (s : State) (i : Instr) :
    eventsOf s i = [] ∨
    (response s i ≠ [] ∧ portOf s.config i ≠ .con ∧
      (eventsOf s i = [.tx (portOf s.config i) (response s i)] ∨
        eventsOf s i = [.flush, .tx (portOf s.config i) (response s i)])) ∨
    (portOf s.config i = .con ∧ (eventsOf s i = [.conRejected] ∨ ∃ v, eventsOf s i = [.conValue v])) := by
  rcases consoleEvents_cases s i with hcon | ⟨hport, hflush, hresp, hcon⟩
  · by_cases hresp : response s i = []
    · have hflush : flushing i = false := by
        by_contra h
        rcases response_of_flushing (Bool.of_not_eq_false h) s with hbyte | hbyte <;> simp [hresp] at hbyte
      exact .inl (by simp [eventsOf, hflush, hcon, hresp])
    · have hport := (portOf_ne_con_or_response_eq_nil s i).resolve_right hresp
      refine .inr (.inl ⟨hresp, hport, ?_⟩)
      cases hflush : flushing i with
      | false => exact .inl (by simp [eventsOf, hflush, hcon, txEvents_of_ne_nil _ hresp])
      | true => exact .inr (by simp [eventsOf, hflush, hcon, txEvents_of_ne_nil _ hresp])
  · have hevents : eventsOf s i = consoleEvents s i := by simp [eventsOf, hflush, hresp]
    rw [hevents]
    exact .inr (.inr ⟨hport, hcon⟩)

theorem flush_mem_eventsOf_iff (s : State) (i : Instr) : .flush ∈ eventsOf s i ↔ flushing i = true := by
  have hcon : Output.flush ∉ consoleEvents s i := by
    rcases consoleEvents_cases s i with hc | ⟨-, -, -, hc | ⟨v, hc⟩⟩ <;> simp [hc]
  have htx : Output.flush ∉ txEvents (portOf s.config i) (response s i) :=
    fun h => Output.noConfusion (mem_txEvents h).1
  simp only [eventsOf, List.mem_append, hcon, htx, or_false]
  split_ifs with h <;> simp [h]

theorem flushing_iff (i : Instr) :
    flushing i = true ↔
      i = .dEnable ∨ i = .dDisable ∨ i = .dSetdefault ∨ (∃ b, i = .dUnsup b) ∨ ∃ b, i = .cUnrec b := by
  cases i <;> simp [flushing]

/-- Settles O51: the shape of the events, on the port the item came from. -/
theorem oneRecordPerTransaction : Obligations.OneRecordPerTransaction := by
  intro s t a rest hbox hstep
  obtain ⟨i, hd, rfl⟩ := step_cons hbox hstep
  have hport : portOf s.config i = a.port := congrArg Arrival.port (Laws.decode_wellFormed hd).2.1
  refine ⟨eventsOf (s.setInbox rest) i, rfl, ?_⟩
  rw [← hport]
  rcases eventsOf_cases (s.setInbox rest) i with hnone | ⟨hne, hcon, hrecord⟩ | hprint
  · exact .inl hnone
  · exact .inr (.inl ⟨_, hne, hcon, hrecord⟩)
  · exact .inr (.inr hprint)

/-- Settles O52: a flush stands among a transaction's events exactly when it is a flushing one, and those are five. -/
theorem flushRaisedExactlyBy : Obligations.FlushRaisedExactlyBy := by
  intro i s t evs hexec hout
  obtain rfl := exec_next_iff.mp hexec
  obtain rfl : eventsOf s i = evs := List.append_cancel_left hout
  rw [flush_mem_eventsOf_iff, flushing_iff]

/-- Settles O53: the flush empties the queue and the one-byte response follows it. -/
theorem flushLeavesOnlyItsResponse : Obligations.FlushLeavesOnlyItsResponse := by
  intro i s t hflush hexec
  obtain rfl := exec_next_iff.mp hexec
  have hresp := response_of_flushing hflush s
  have hne : response s i ≠ [] := by rcases hresp with h | h <;> simp [h]
  have hcon : consoleEvents s i = [] := by
    rcases consoleEvents_cases s i with hc | ⟨-, hno, -, -⟩
    · exact hc
    · rw [hflush] at hno
      exact absurd hno (by decide)
  have hqueue : transportQueue (s.out ++ eventsOf s i) = response s i := by
    simp [transportQueue_append, eventsOf, hflush, hcon, txEvents_of_ne_nil _ hne]
  rw [effect_out, hqueue]
  exact hresp

end Sys2Proof.Machine
end

section
/-!
PROOFS. Independence and sequences (spec/10_state.md R11, spec/44_event_entry_and_console.md R215, spec/20_memory.md R41): what a
transaction does not read, and an indexed write followed by a read.
-/

namespace Sys2Proof.Machine

/-- No column but that of `mode` reads `mode`. -/
theorem effect_withMode (i : Instr) (s : State) (m : Mode) :
    effect i { s with mode := m } = { effect i s with mode := modeAfter s.config m i } := by
  cases i <;> rfl

/-- Settles O54: the byte decodes to the same command in every mode, and the command reads no mode. -/
theorem commandsIgnoreMode : Obligations.CommandsIgnoreMode := by
  intro s t m b rest hbox hstep
  obtain ⟨i, hd, rfl⟩ := step_cons hbox hstep
  obtain rfl := Laws.decode_cmd hd
  have hu := step_of_decode_ok (s := { s with mode := m }) (i := decodeCmd s.config b) hbox rfl
  refine ⟨_, hu.trans (exec_eq _ _), ?_⟩
  exact effect_withMode (decodeCmd s.config b) (s.setInbox rest) m

theorem exec_decodeKey (row col : Byte) (pressed : Bool) (s : State) :
    exec (decodeKey row col pressed) s = .next (s.keyTransition row col pressed) := by
  cases pressed <;> rfl

theorem step_key {s : State} {row col : Byte} {pressed : Bool} {rest : List Arrival}
    (hbox : s.inbox = .key row col pressed :: rest) :
    step s = .next { s with
      inbox := rest
      out := s.out ++ txEvents .key (keyBytes (scanEncode s.config row col pressed s.scancodeSet)) } := by
  have hd : decode s.config s.mode (.key row col pressed) = .ok (decodeKey row col pressed) := rfl
  rw [step_of_decode_ok hbox hd, exec_decodeKey, State.keyTransition_eq]

/-- Settles O55: the events of a key item are a function of the item, the configuration and the set. -/
theorem keyEventsReadOnlyTheSet : Obligations.KeyEventsReadOnlyTheSet := by
  intro s u row col pressed rest rest' hconfig hset hs hu
  refine ⟨_, step_key hs, ?_⟩
  rw [hconfig, hset]
  exact step_key hu

/-! ## An indexed write, its operand and an indexed read -/

theorem exec_cRdcfg (s : State) : exec .cRdcfg s = .next (s.respondCmd [s.readCfg 0#5]) := rfl

theorem exec_cRdram (i : CfgIndex) (s : State) : exec (.cRdram i) s = .next (s.respondCmd [s.readCfg i]) := rfl

theorem exec_cWrram (i : CfgIndex) (s : State) :
    exec (.cWrram i) s = .next { s with cfgAddr := i, mode := .awaitingConfigByteValue } :=
  congrArg Host.Outcome.next (State.respondCmd_nil _)

/-- The index of a window's first code is 0. -/
theorem index_eq_zero_of_add_eq {base : Byte} {i : CfgIndex} (h : base + i.setWidth 8 = base) : i = 0#5 := by
  rw [← Laws.windowIndex_add base i, h]
  simp [windowIndex]

section
variable {s : State} {i : CfgIndex} {rest : List Arrival} (hwf : s.config.wf = true)
include hwf

theorem windowHolds_readCode : windowHolds s.config.cfgReadBase (s.config.cfgReadBase + i.setWidth 8) = true := by
  have hcode := Laws.toNat_window (Laws.config_codes hwf).2.1 i
  have hi := i.isLt
  exact Laws.windowHolds_iff.mpr (by omega)

theorem windowHolds_writeCode : windowHolds s.config.cfgWriteBase (s.config.cfgWriteBase + i.setWidth 8) = true := by
  have hcode := Laws.toNat_window (Laws.config_codes hwf).2.2.1 i
  have hi := i.isLt
  exact Laws.windowHolds_iff.mpr (by omega)

/-- The write code of an index latches it, also where the code is that of `C.WRCFG` (R170, R172, R180). -/
theorem step_writeCode (hbox : s.inbox = .cmd (s.config.cfgWriteBase + i.setWidth 8) :: rest) :
    ∃ t, step s = .next t ∧ t.config = s.config ∧ t.inbox = rest ∧ t.mode = .awaitingConfigByteValue ∧ t.cfgAddr = i ∧
      t.out = s.out := by
  by_cases hsingle : s.config.cfgWriteBase + i.setWidth 8 ∈ s.config.singleCodes
  · obtain ⟨hcmd, hbase⟩ := (Laws.singleCode_in_window hwf hsingle).2 (windowHolds_writeCode hwf)
    obtain rfl := index_eq_zero_of_add_eq hbase
    rw [hcmd] at hbox
    have hd := Laws.RoundTrip.cWrcfg s.config s.mode hwf rfl rfl
    exact ⟨_, (step_of_decode_ok hbox hd).trans (exec_cWrcfg _), rfl, rfl, rfl, rfl, rfl⟩
  · have hcode : WellFormed s.config (.cWrram i) = true := by simpa [WellFormed] using hsingle
    have hd := Laws.RoundTrip.cWrram i s.config s.mode hwf hcode rfl
    exact ⟨_, (step_of_decode_ok hbox hd).trans (exec_cWrram i _), rfl, rfl, rfl, rfl, rfl⟩

/-- The read code of an index answers the byte there, also where the code is that of `C.RDCFG` (R170, R171, R179). -/
theorem step_readCode (hbox : s.inbox = .cmd (s.config.cfgReadBase + i.setWidth 8) :: rest) :
    ∃ t, step s = .next t ∧ t.inbox = rest ∧ t.mode = s.mode ∧ t.readCfg i = s.readCfg i ∧
      t.out = s.out ++ [.tx .cmd [s.readCfg i]] := by
  by_cases hsingle : s.config.cfgReadBase + i.setWidth 8 ∈ s.config.singleCodes
  · obtain ⟨hcmd, hbase⟩ := (Laws.singleCode_in_window hwf hsingle).1 (windowHolds_readCode hwf)
    obtain rfl := index_eq_zero_of_add_eq hbase
    rw [hcmd] at hbox
    have hd := Laws.RoundTrip.cRdcfg s.config s.mode hwf rfl rfl
    exact ⟨_, (step_of_decode_ok hbox hd).trans (exec_cRdcfg _), rfl, rfl, rfl, rfl⟩
  · have hcode : WellFormed s.config (.cRdram i) = true := by simpa [WellFormed] using hsingle
    have hd := Laws.RoundTrip.cRdram i s.config s.mode hwf hcode rfl
    exact ⟨_, (step_of_decode_ok hbox hd).trans (exec_cRdram i _), rfl, rfl, rfl, rfl⟩

end

theorem exec_dCfgValue (b : Byte) (s : State) :
    exec (.dCfgValue b) s = .next ((s.writeCfg s.cfgAddr b).respondOperand [ackByte]) := rfl

/-- The operand is stored at the latched address and acknowledged (R143). -/
theorem step_cfgValue {s : State} {v : Byte} {rest : List Arrival} (hm : s.mode = .awaitingConfigByteValue)
    (hbox : s.inbox = .data v :: rest) :
    ∃ t, step s = .next t ∧ t.config = s.config ∧ t.inbox = rest ∧ t.mode = .normal ∧ t.readCfg s.cfgAddr = v ∧
      t.out = s.out ++ [.tx .data [0xFA#8]] := by
  have hd : decode s.config s.mode (.data v) = .ok (.dCfgValue v) := by rw [hm]; rfl
  exact ⟨_, (step_of_decode_ok hbox hd).trans (exec_dCfgValue v _), rfl, rfl, rfl,
    State.readCfg_writeCfg_same (s.setInbox rest) s.cfgAddr v, rfl⟩

/-- Settles O57: the write code latches the index, the operand is stored there, and the read code answers it. -/
theorem configWriteThenReadBack : Obligations.ConfigWriteThenReadBack := by
  intro s i v rest hwf hbox
  obtain ⟨s₁, hstep₁, hconfig₁, hbox₁, hmode₁, rfl, hout₁⟩ := step_writeCode hwf hbox
  obtain ⟨s₂, hstep₂, hconfig₂, hbox₂, hmode₂, rfl, hout₂⟩ := step_cfgValue hmode₁ hbox₁
  have hconfig : s₂.config = s.config := hconfig₂.trans hconfig₁
  rw [← hconfig] at hwf hbox₂
  obtain ⟨s₃, hstep₃, hbox₃, hmode₃, hread₃, hout₃⟩ := step_readCode hwf hbox₂
  refine ⟨s₃, ?_, hbox₃, hmode₃.trans hmode₂, hread₃, ?_⟩
  · rw [run_succ hstep₁, run_succ hstep₂, run_succ hstep₃]
    rfl
  · rw [hout₃, hout₂, hout₁, List.append_assoc]
    rfl

end Sys2Proof.Machine
end

section
/-!
PROOFS. The decoders' maps written out (spec/30_encoding.md R62 to R65): each row of a map is its own item, and the default rows are
the bytes no listed row takes.
-/

namespace Sys2Proof.Laws

/-- Settles O1: each item is computed. -/
theorem sampleItemsDecode : Obligations.SampleItemsDecode :=
  ⟨rfl, rfl, rfl, rfl, rfl, rfl, rfl, rfl, rfl⟩

/-- Settles O2: the operand rule of each awaiting mode, the listed rows of `Normal` mode, and its default row. -/
theorem dataByteDecodesInTwoLevels : Obligations.DataByteDecodesInTwoLevels := by
  intro c b
  refine ⟨⟨rfl, rfl, rfl, rfl, rfl, fun hop => if_pos hop⟩, fun i hi => ?_, fun hb => ?_⟩
  · simp only [List.mem_cons, Prod.mk.injEq, List.not_mem_nil, or_false] at hi
    rcases hi with ⟨rfl, rfl⟩ | ⟨rfl, rfl⟩ | ⟨rfl, rfl⟩ | ⟨rfl, rfl⟩ | ⟨rfl, rfl⟩ | ⟨rfl, rfl⟩ | ⟨rfl, rfl⟩ | ⟨rfl, rfl⟩ |
      ⟨rfl, rfl⟩ | ⟨rfl, rfl⟩ | ⟨rfl, rfl⟩ <;> rfl
  · rw [decode_normal_data_eq, decodeNormal_of_not_mem hb]

theorem decode_cmd_eq (c : Config) (m : Mode) (b : Byte) : decode c m (.cmd b) = .ok (decodeCmd c b) := rfl

/-- The index of a code is its five low bits when the window begins at a multiple of 32 (R71 a). -/
theorem windowIndex_of_aligned {base : Byte} (h : base.toNat % 32 = 0) (b : Byte) :
    windowIndex base b = b.extractLsb' 0 5 := by
  apply BitVec.eq_of_toNat_eq
  have hbase := base.isLt
  simp only [windowIndex, BitVec.toNat_setWidth, BitVec.toNat_sub, BitVec.extractLsb'_toNat, Nat.shiftRight_zero]
  omega

/-- No byte of a range that avoids the values of the default single codes is one of them. -/
theorem not_mem_singleCodes_default {b : Byte}
    (h : b.toNat ∉ [0x20, 0x60, 0xAD, 0xAE, 0xA7, 0xA8, 0xD3, 0xD4]) : b ∉ Config.default.singleCodes :=
  fun hb => h (List.mem_map_of_mem (f := BitVec.toNat) hb)

/-- Settles O3: the single codes are rows of the map, and the windows and the default row hold what is no single code. -/
theorem commandByteMapAtDefaults : Obligations.CommandByteMapAtDefaults := by
  intro m b
  have hr : Config.default.cfgReadBase.toNat = 0x20 := rfl
  have hw : Config.default.cfgWriteBase.toNat = 0x60 := rfl
  simp only [decode_cmd_eq]
  refine ⟨fun i hi => ?_, fun hin => ?_, fun hin => ?_, fun hin => ?_⟩
  · simp only [List.mem_cons, Prod.mk.injEq, List.not_mem_nil, or_false] at hi
    rcases hi with ⟨rfl, rfl⟩ | ⟨rfl, rfl⟩ | ⟨rfl, rfl⟩ | ⟨rfl, rfl⟩ | ⟨rfl, rfl⟩ | ⟨rfl, rfl⟩ | ⟨rfl, rfl⟩ | ⟨rfl, rfl⟩ <;>
      rfl
  all_goals
    have hs : b ∉ Config.default.singleCodes := by
      apply not_mem_singleCodes_default
      simp only [List.mem_cons, List.not_mem_nil, or_false]
      omega
    rw [decodeCmd_of_not_mem hs]
    simp only [windowHolds_iff, hr, hw]
  · rw [if_pos (by omega), windowIndex_of_aligned (by rw [hr])]
  · rw [if_neg (by omega), if_pos (by omega), windowIndex_of_aligned (by rw [hw])]
  · rw [if_neg (by omega), if_neg (by omega)]

end Sys2Proof.Laws
end

section
/-!
PROOFS. The state each transaction answers, written out (spec/41_data_channel.md R126 to R146, spec/42_command_channel.md R171 to
R182, spec/44_event_entry_and_console.md R221, R222).
-/

namespace Sys2Proof.Machine

/-! ## When a response is captured -/

theorem capturesOperands_eq_false_iff {r : ResendCapture} : capturesOperands r = false ↔ r = .normalModeOnly := by
  cases r <;> decide

theorem capturesCommands_iff {r : ResendCapture} : capturesCommands r = true ↔ r = .all := by
  cases r <;> decide

/-- The end of an operand transaction, with the capture in the words of R150. -/
theorem State.respondOperand_cons_eq (b : Byte) (rest : List Byte) (s : State) :
    s.respondOperand (b :: rest) = { s with
      mode := .normal,
      resend := if s.config.resendCapture = .normalModeOnly then s.resend else b :: rest,
      out := s.out ++ [.tx .data (b :: rest)] } := by
  rw [State.respondOperand_cons]
  simp only [← capturesOperands_eq_false_iff, ← Bool.not_eq_true, ite_not]

/-- The end of a `CMD` transaction, with the capture in the words of R150. -/
theorem State.respondCmd_cons_eq (b : Byte) (rest : List Byte) (s : State) :
    s.respondCmd (b :: rest) = { s with
      resend := if s.config.resendCapture = .all then b :: rest else s.resend,
      out := s.out ++ [.tx .cmd (b :: rest)] } := by
  simp only [State.respondCmd_cons, capturesCommands_iff]

/-! ## The `DATA` commands of `Normal` mode -/

theorem exec_dScanset (s : State) :
    exec .dScanset s = .next ((s.setMode .awaitingScancodeSetValue).respondNormal [ackByte]) := rfl

theorem exec_dSetleds (s : State) :
    exec .dSetleds s = .next ((s.setMode .awaitingLedValue).respondNormal [ackByte]) := rfl

theorem exec_dReset (s : State) :
    exec .dReset s =
      .next ((s.setEnabled false).respondNormal [ackByte, s.config.selftestPass0, s.config.selftestPass1]) := rfl

theorem exec_dQuirk60 (s : State) : exec .dQuirk60 s = .next (s.respondNormal []) := rfl

theorem exec_dQuirk45 (s : State) : exec .dQuirk45 s = .next (s.respondNormal []) := rfl

/-- Settles O7: the mode is entered and the ACK captured and emitted. -/
theorem scansetCommandAwaitsValue : Obligations.ScansetCommandAwaitsValue := by
  intro s
  refine ⟨rfl, ?_⟩
  rw [exec_dScanset, State.respondNormal_cons]
  rfl

/-- Settles O8: the code of `D.SETLEDS` is 0xED, so the byte it is decoded from is no other. -/
theorem setLedsCommandAwaitsLedByte : Obligations.SetLedsCommandAwaitsLedByte := by
  intro s
  refine ⟨fun b => ⟨fun h => ?_, ?_⟩, ?_⟩
  · obtain ⟨hcode, -⟩ := Laws.decode_onData (b := 0xED#8) rfl h
    exact Arrival.data.inj hcode
  · rintro rfl
    rfl
  · rw [exec_dSetleds, State.respondNormal_cons]
    rfl

/-- Settles O10: the two variants of the parameter. -/
theorem setRateCommandBothVariants : Obligations.SetRateCommandBothVariants := by
  intro s
  refine ⟨rfl, fun hop => ?_, fun hop => ?_⟩
  · have hfirst : rateFirstDelay 0xF3#8 = 1000 := by decide
    have hinter : rateInterDelay 0xF3#8 = 183 := by decide
    rw [exec_dSetrate_commandByte hop, State.respondNormal_cons, State.setRate_eq, hfirst, hinter]
    rfl
  · rw [exec_dSetrate_nextDataByte hop, State.respondNormal_cons]
    rfl

/-- Settles O14: the flag is cleared, then one record of three bytes. -/
theorem resetCommandAnswersSelfTest : Obligations.ResetCommandAnswersSelfTest := by
  intro s
  refine ⟨rfl, ?_⟩
  rw [exec_dReset, State.respondNormal_cons]
  rfl

/-- Settles O15: the record is emitted without a capture. -/
theorem resendReplaysBuffer : Obligations.ResendReplaysBuffer := by
  intro s
  refine ⟨rfl, ?_⟩
  rw [exec_dResend, State.emitTx_eq]
  rfl

/-- Settles O16: an empty response is neither captured nor emitted. -/
theorem quirkBytesAreSilent : Obligations.QuirkBytesAreSilent := by
  intro s
  refine ⟨rfl, ?_, rfl, ?_, rfl⟩
  · rw [exec_dQuirk60, State.respondNormal_nil]
  · rw [exec_dQuirk45, State.respondNormal_nil]

/-! ## Operand bytes -/

theorem exec_dScansetGet (s : State) : exec .dScansetGet s = .next (s.respondOperand [ackByte, s.scancodeSet]) := rfl

theorem exec_dScansetSet (b : Byte) (s : State) :
    exec (.dScansetSet b) s = .next ((s.setScancodeSet b).respondOperand [ackByte]) := rfl

theorem exec_dLedValue (b : Byte) (s : State) : exec (.dLedValue b) s = .next (s.respondOperand [ackByte]) := rfl

theorem exec_dEchoValue (b : Byte) (s : State) : exec (.dEchoValue b) s = .next (s.respondOperand [b]) := rfl

theorem exec_dAuxValue (b : Byte) (s : State) : exec (.dAuxValue b) s = .next (s.respondOperand []) := rfl

theorem exec_dRateValue (b : Byte) (s : State) :
    exec (.dRateValue b) s = .next ((s.setRate b).respondOperand [ackByte]) := rfl

/-- Settles O18: the sentinel reads the register, any other byte writes it. -/
theorem scansetOperandGetsOrSets : Obligations.ScansetOperandGetsOrSets := by
  intro s b
  constructor
  · rw [exec_dScansetGet, State.respondOperand_cons_eq]
    rfl
  · rw [exec_dScansetSet, State.respondOperand_cons_eq]
    rfl

/-- Settles O19: three responses, the last one empty. -/
theorem ledEchoAuxOperandsConsumed : Obligations.LedEchoAuxOperandsConsumed := by
  intro s b
  refine ⟨?_, ?_, ?_⟩
  · rw [exec_dLedValue, State.respondOperand_cons_eq]
    rfl
  · rw [exec_dEchoValue, State.respondOperand_cons_eq]
  · rw [exec_dAuxValue, State.respondOperand_nil]

/-- Settles O20: a read after the write, at the latched address and elsewhere. -/
theorem cfgOperandStoredAtLatchedAddress : Obligations.CfgOperandStoredAtLatchedAddress := by
  intro s b
  refine ⟨_, exec_dCfgValue b s, ?_, fun k hk => ?_, ?_⟩
  · exact State.readCfg_writeCfg_same s s.cfgAddr b
  · exact State.readCfg_writeCfg_other s hk b
  · rw [State.respondOperand_cons_eq]
    rfl

/-- Settles O21: the rate is set by the formula, then the operand is acknowledged. -/
theorem rateOperandSetsTiming : Obligations.RateOperandSetsTiming := by
  intro s b
  rw [exec_dRateValue, setRateFollowsFormula s b, State.respondOperand_cons_eq]
  rfl

/-! ## The command channel -/

/-- Settles O22: both reads answer one byte by the same end of a transaction. -/
theorem configReadsAnswerRawByte : Obligations.ConfigReadsAnswerRawByte := by
  intro s i
  constructor
  · rw [exec_cRdram, State.respondCmd_cons_eq]
  · rw [exec_cRdcfg, State.respondCmd_cons_eq]

/-- Settles O24: the command latches and emits nothing. -/
theorem indexedWriteLatchesIndex : Obligations.IndexedWriteLatchesIndex :=
  fun s i => exec_cWrram i s

theorem flagMask_getLsbD (bit : Fin 8) {k : Nat} (hk : k < 8) : (flagMask bit).getLsbD k = decide (k = bit.val) := by
  simp only [flagMask, BitVec.getLsbD_shiftLeft, BitVec.getLsbD_one]
  rw [Bool.eq_iff_iff]
  simp only [Bool.and_eq_true, Bool.not_eq_true', decide_eq_true_eq, decide_eq_false_iff_not]
  omega

theorem setFlag_getLsbD (v : Byte) (bit : Fin 8) {k : Nat} (hk : k < 8) :
    (setFlag v bit).getLsbD k = if k = bit.val then true else v.getLsbD k := by
  rw [setFlag, BitVec.getLsbD_or, flagMask_getLsbD bit hk]
  split_ifs with h <;> simp [h]

theorem clearFlag_getLsbD (v : Byte) (bit : Fin 8) {k : Nat} (hk : k < 8) :
    (clearFlag v bit).getLsbD k = if k = bit.val then false else v.getLsbD k := by
  rw [clearFlag, BitVec.getLsbD_and, BitVec.getLsbD_not, flagMask_getLsbD bit hk]
  split_ifs with h <;> simp [h, hk]

/-- A flag command writes one byte to `cfg[0]` and has an empty response; the byte differs from the old one in one bit. -/
theorem flagCommand_touches {s : State} {i : Instr} {bit : Fin 8} {v : Bool} {b : Byte}
    (hexec : exec i s = .next ((s.writeCfg 0#5 b).respondCmd []))
    (hbits : ∀ k, k < 8 → b.getLsbD k = if k = bit.val then v else (s.readCfg 0#5).getLsbD k) :
    ∃ t, exec i s = .next t ∧
      (∀ k, k < 8 → (t.readCfg 0#5).getLsbD k = if k = bit.val then v else (s.readCfg 0#5).getLsbD k) ∧
      (∀ j, j ≠ 0#5 → t.readCfg j = s.readCfg j) ∧
      t = { s with cfg := t.cfg } := by
  rw [State.respondCmd_nil] at hexec
  refine ⟨_, hexec, ?_, fun j hj => State.readCfg_writeCfg_other s hj b, rfl⟩
  rw [State.readCfg_writeCfg_same]
  exact hbits

/-- Settles O25: two commands set a bit, two clear one. -/
theorem flagCommandsTouchOneBit : Obligations.FlagCommandsTouchOneBit := by
  intro s i bit v h
  simp only [List.mem_cons, Prod.mk.injEq, List.not_mem_nil, or_false] at h
  rcases h with ⟨rfl, rfl, rfl⟩ | ⟨rfl, rfl, rfl⟩ | ⟨rfl, rfl, rfl⟩ | ⟨rfl, rfl, rfl⟩
  · exact flagCommand_touches rfl fun _ hk => setFlag_getLsbD _ _ hk
  · exact flagCommand_touches rfl fun _ hk => clearFlag_getLsbD _ _ hk
  · exact flagCommand_touches rfl fun _ hk => setFlag_getLsbD _ _ hk
  · exact flagCommand_touches rfl fun _ hk => clearFlag_getLsbD _ _ hk

/-- Settles O27: recovery, then a NAK on the `CMD` port. -/
theorem unrecognisedCommandRecovers : Obligations.UnrecognisedCommandRecovers := by
  intro s b
  rw [exec_cUnrec, State.respondCmd_cons_recover]
  simp only [capturesCommands_iff]
  rfl

/-! ## The console -/

theorem overrideEvents_cases (c : Config) (set : Byte) :
    overrideEvents c set = [] ∨ overrideEvents c set = [.conValue set] := by
  unfold overrideEvents
  split_ifs
  · exact .inr rfl
  · exact .inl rfl

/-- Settles O31: the two accepted requests, and the rejection of every other. -/
theorem consoleOverrideAcceptsOneAndTwo : Obligations.ConsoleOverrideAcceptsOneAndTwo := by
  intro s args
  refine ⟨fun n v hnv hargs => ?_, fun h1 h2 => ?_⟩
  · have hset : overrideSet args = some v := by
      simp only [List.mem_cons, Prod.mk.injEq, List.not_mem_nil, or_false] at hnv
      rcases hnv with ⟨rfl, rfl⟩ | ⟨rfl, rfl⟩
      · rw [hargs, overrideSet_one]
      · rw [hargs, overrideSet_two]
    exact ⟨_, overrideEvents_cases s.config v, exec_nOverride_accepted hset s⟩
  · have hset : overrideSet args = none := by
      cases h : overrideSet args with
      | none => rfl
      | some v =>
        rcases overrideSet_eq_some h with ⟨harg, -⟩ | ⟨harg, -⟩
        · exact absurd harg h1
        · exact absurd harg h2
    exact exec_nOverride_rejected hset s

end Sys2Proof.Machine
end
